-- ==== Sys2Proof/Word.lean ====
section
/-! DEFINITION. Word.lean: the words and numbers of the Sparzel 5624 that the spec treats as bits or as indexes. -/

namespace Sys2Proof

/-- A 32-bit word: the data of a link word, a payload word, a trace word, a cycle number. -/
abbrev Word := BitVec 32

/-- A 20-bit output code (00, Values); a lane word of up to 20 bits is held in the same width (R82). -/
abbrev OutCode := BitVec 20

/-- A link word of 35 bits (R148). -/
abbrev LinkWord := BitVec 35

/-- Lane numbers 0 to 23. -/
abbrev LaneId := Fin 24

/-- Rule indexes 0 to 255 (R86). -/
abbrev RuleId := Fin 256

/-- Curve numbers 0 to 15 (R73). -/
abbrev CurveId := Fin 16

/-- Points 0 to 64 of a curve (R73). -/
abbrev PointId := Fin 65

/-- Block ids 0 to 127 (R34). -/
abbrev BlockId := Fin 128

/-- Bank groups 0 to 7 (R25). -/
abbrev GroupId := Fin 8

/-- Banks 0 and 1 of a group (R25). -/
abbrev BankId := Fin 2

/-- The least engineering code (00, Values). -/
def codeMin : Int := -8388608

/-- The greatest engineering code (00, Values). -/
def codeMax : Int := 8388607

end Sys2Proof
end

