-- ==== Sys2Proof/Config.lean ====
section
/-! DEFINITION. Config.lean: the numbers the part fixes, and the free values the spec leaves open
(opaque constants without a body: nothing can be proved of them). -/

namespace Sys2Proof.Config

/-- The ceiling of every statistics counter (00, Conventions). -/
def counterMax : Nat := 4294967295

/-- Places of the command queue (R165). -/
def commandPlaces : Nat := 8

/-- Places of the reply queue and of the notice queue (R159). -/
def recordPlaces : Nat := 16

/-- Places of the tap queue (R159). -/
def tapPlaces : Nat := 32

/-- Words of a replay queue (R49). -/
def replayPlaces : Nat := 48

/-- Words of a lane's history (R23). -/
def historyPlaces : Nat := 64

/-- Rules of one active chain (R104). -/
def chainPlaces : Nat := 8

/-- Blocks of the fill queue (R34). -/
def fillPlaces : Nat := 4

/-- Words of trace memory (R26). -/
def traceWords : Nat := 536870912

/-- The KEEP_PACE debt's ceiling (R62). -/
def debtMax : Nat := 65535

/-- The time of one link word in ns (R160). -/
def linkSlot : Nat := 16

/-- The contents of a trace word that nothing has written since the n-th power-on (R26: "not
initialised"). DESIGN CHOICE, log 6: a free value for every power-on and address. Safe. -/
opaque uninitialisedWord : Nat → Nat → Word

/-- The contents of a trace word whose write a hard reset abandoned (R33: "an unknown state").
DESIGN CHOICE, log 6: a free value for every abandoned word. Safe. -/
opaque abandonedWord : Nat → Nat → Word

/-- The code by which READ_RULE returns a REMAINING of UNLIMITED, which no rule gives (R87, R112,
R190). DESIGN CHOICE, log 18: a free value. Safe. -/
opaque remainingUnlimited : Word

end Sys2Proof.Config
end

