-- ==== Sys2Proof/Syntax.lean ====
section
/-! DEFINITION. Syntax.lean: the named values of the spec's tables that a command can carry, and the
commands: one constructor of `Instr` per row of spec/opcode_table.json. -/

namespace Sys2Proof

/-- The line state sent with each word (00, Values; codes of R188). -/
inductive LineState where
  | normal | openLine | shortLow | shortHigh
  deriving DecidableEq, Repr

/-- The classes of actions (R86). -/
inductive ActionClass where
  | value | code | time | line | frame
  deriving DecidableEq, Repr

/-- The actions with their parameters (R86, R116). -/
inductive Action where
  | stuck (v : Int)
  | offset (d : Int)
  | gain (g d : Int)
  | noise (a seed : Nat)
  | ramp (s : Int) (limit : Nat)
  | clamp (lo hi : Int)
  | invert
  | force (andMask orMask : OutCode)
  | flip (m : OutCode)
  | codeStuck (c : OutCode)
  | orderSwap
  | drop
  | freeze
  | delay (n : Nat)
  | line (state : LineState)
  | checkBad
  | seqHold
  | seqJump (k : Nat)
  deriving DecidableEq, Repr

/-- The two crossings, or either, of an ON_LEVEL trigger (R86). -/
inductive Edge where
  | rising | falling | either
  deriving DecidableEq, Repr

/-- The two events of a rule that an ON_RULE trigger names (R86). -/
inductive RuleSignal where
  | active | ended
  deriving DecidableEq, Repr

/-- The triggers (R86). `onMark none` is ON_MARK(ANY). -/
inductive Trigger where
  | immediate
  | atCycle (n : Word)
  | onMark (tag : Option Nat)
  | onLevel (t : Int) (edge : Edge)
  | onRule (r : RuleId) (signal : RuleSignal)
  | onCommand (channel : Nat)
  deriving DecidableEq, Repr

/-- What a rule's delay and duration count (R86). -/
inductive RuleUnit where
  | ticks | cycles
  deriving DecidableEq, Repr

/-- The fields of a rule record that its check code covers (R86). LANE and WATCH are numbers of five
bits, since a disturbance may leave any value in them (R135). -/
structure RuleFields where
  lane : Nat
  watch : Nat
  group : Nat
  priority : Nat
  action : Action
  trigger : Trigger
  unit : RuleUnit
  delay : Nat
  duration : Nat
  repeats : Nat
  intermittency : Nat
  notify : Bool
  deriving DecidableEq, Repr

/-- The direction of a playlist entry (R45). -/
inductive Direction where
  | forward | reverse
  deriving DecidableEq, Repr

/-- What follows an entry's final pass (R45, R48). -/
inductive EntryEnd where
  | next | loop (k : Nat) | stop
  deriving DecidableEq, Repr

/-- The fields of a playlist entry (R45). -/
structure PlaylistEntry where
  block : BlockId
  column : Nat
  firstRow : Nat
  lastRow : Nat
  direction : Direction
  step : Nat
  passes : Nat
  ending : EntryEnd
  deriving DecidableEq, Repr

/-- The item a disturbance changes (R135), as it stands afterwards. `agrees` says whether the check
code stored with the item agrees with it afterwards (log 7); a disturbance of the stored check code
alone leaves the item as it was and `agrees` false. -/
inductive Corruption where
  | curvePoint (curve : CurveId) (point : PointId) (value : OutCode) (agrees : Bool)
  | ruleRecord (rule : RuleId) (fields : RuleFields) (agrees : Bool)
  | playlistEntry (lane : LaneId) (index : Nat) (entry : PlaylistEntry) (agrees : Bool)
  deriving DecidableEq, Repr

/-- What may be taken within a tick (R126): the DISARM at the head of the command queue, or the end of a
CYCLES-unit activation (the row RULE_DURATION_END). -/
inductive TickEvent where
  | disarm
  | ruleEnd (r : RuleId)
  deriving DecidableEq, Repr

/-- How much of what an event sends has arrived when the RESET at the head of the command queue is taken: so
many of its reports at the Fault Latch (R147), and so many of its notices and TAP words at the Return Sender
(R164, R179); the rest arrive after the reset (log 43). -/
structure Arrived where
  reports : Nat := 0
  notices : Nat := 0
  taps : Nat := 0
  deriving DecidableEq, Repr

/-- What is taken within one tick: the events between its steps 1 and 2 and between its steps 2 and 3, in
order (R126, log 23); for a tick that falls among the replacements of a LOAD_CURVE, how many points of the
record have been replaced when it reads P[k] (`low`) and when it reads P[k + 1] (`high`), where not more have
been already (R79, log 22); and, where the RESET at the head of the command queue is taken before all that the
tick sends has arrived, what has arrived by then (R147, R164, log 43). -/
structure Within where
  afterSource : List TickEvent := []
  afterTriggers : List TickEvent := []
  low : Nat := 0
  high : Nat := 0
  reset : Option Arrived := none
  deriving DecidableEq, Repr

/-- A tick of a TIMED lane, with what is taken within it. -/
structure TickOf where
  lane : LaneId
  within : Within := {}
  deriving DecidableEq, Repr

/-- A lane's reading of a playlist entry for a fetch; `reset` says what of the error it finds has arrived
where the RESET at the head of the command queue is taken before all of it has (R147, R164, log 43). -/
structure FetchOf where
  lane : LaneId
  reset : Option Arrived := none
  deriving DecidableEq, Repr

/-- The end of an activation; `reset` says whether its notice has arrived where the RESET at the head of the
command queue is taken between the end and the notice (R164, log 43). -/
structure EndOf where
  rule : RuleId
  reset : Option Arrived := none
  deriving DecidableEq, Repr

/-- Who takes a cycle mark, the Rule Table or a lane (R151, step 4), with what is taken within the tick
that the lane may take at the mark. -/
inductive MarkTaker where
  | ruleTable
  | lane (l : LaneId) (within : Within := {})
  deriving DecidableEq, Repr

/-- An event among the replacements of a LOAD_CURVE (R79): a tick of a TIMED lane, or a cycle mark with the
ticks that fall at it. -/
inductive CurveEvent where
  | tick (t : TickOf)
  | mark (number : Word) (order : List MarkTaker)
  deriving DecidableEq, Repr

/-- The commands. `wait` is the time in ns that passes before an event from outside the part (log 2);
`data` is the 32 data bits of a link word. The record of a command that the Command Unit takes stands at
the head of the command queue (R166, log 4), so its row carries no parameter of its own; LOAD_CURVE's
operand names, in order, the ticks and marks that find its curve half written; each tick says how many of its
points have been replaced when it reads (R79). -/
inductive Instr where
  | hardReset (powerOn : Bool)
  | resetNRisingEdge
  | cycleMark (wait : Nat) (number : Word) (order : List MarkTaker)
  | sample (wait : Nat) (data : Word)
  | header (wait : Nat) (data : Word)
  | payload (wait : Nat) (data : Word)
  | linkWordBad (wait : Nat)
  | silenceTimerExpiry
  | presenceChange (wait : Nat) (l : LaneId) (present : Bool)
  | storeCorruption (wait : Nat) (item : Corruption)
  | timedTick (tick : TickOf)
  | ruleDelayEnd (r : RuleId)
  | ruleDurationEnd (ending : EndOf)
  | portTransferComplete (l : LaneId)
  | fetchIssue (fetch : FetchOf)
  | tmcGrant
  | fetchComplete (l : LaneId)
  | voidedFetchComplete (l : LaneId)
  | fillWriteComplete
  | traceWriteComplete
  | traceReadComplete
  | groupBusyEnd (g : GroupId)
  | refreshDue (g : GroupId)
  | refreshStart (g : GroupId)
  | refreshEnd (g : GroupId)
  | returnWordSent
  | blockedReplyPlaced
  | identify
  | status
  | reset
  | setReporting
  | configLane
  | setPlaylist
  | startLanes
  | stopLanesNow
  | stopLanesDrain
  | resetLane
  | readLane
  | loadCurve (among : List CurveEvent)
  | defineBlock
  | deleteBlock
  | readDirectory
  | writeTraceStart
  | writeTraceContinue
  | readTrace
  | loadRule
  | clearRule
  | armRule
  | armGroup
  | disarmRule
  | disarmGroup
  | fire
  | readRule
  | readLatch
  | clearLatch
  | unknownCommandRecord
  deriving DecidableEq, Repr

end Sys2Proof
end

