-- ==== Sys2Proof/WellFormed.lean ====
section
/-! DEFINITION. WellFormed.lean: the operands a command can carry. Lane, rule, point and group numbers
are in range by their types; what is left is checked here. -/

namespace Sys2Proof

/-- A signed 24-bit code. -/
def codeFits (v : Int) : Bool := -8388608 ≤ v && v ≤ 8388607

/-- The parameters of an action lie in the values that their kinds can hold (R116, log 30): a disturbance
leaves an engineering code an engineering code, so that the value stage stays in range (R71). -/
def Action.fits : Action → Bool
  | .stuck v => codeFits v
  | .offset d => codeFits d
  | .gain g d => -32768 ≤ g && g ≤ 32767 && codeFits d
  | .noise a seed => a ≤ 8388607 && seed ≤ 8388607
  | .ramp s limit => codeFits s && limit ≤ 8388607
  | .clamp lo hi => codeFits lo && codeFits hi
  | .invert => true
  | .force _ _ => true
  | .flip _ => true
  | .codeStuck _ => true
  | .orderSwap => true
  | .drop => true
  | .freeze => true
  | .delay n => n < 128
  | .line _ => true
  | .checkBad => true
  | .seqHold => true
  | .seqJump k => k < 16

/-- The fields of a rule record fit the places the LOAD_RULE layout gives them (R190). -/
def RuleFields.fits (f : RuleFields) : Bool :=
  f.lane < 32 && f.watch < 32 && f.group < 16 && f.priority < 16 && f.delay < 65536 &&
    f.duration < 16777216 && f.repeats < 256 && f.intermittency < 256 && f.action.fits

/-- The fields of a playlist entry fit the places the SET_PLAYLIST layout gives them (R190). -/
def PlaylistEntry.fits (e : PlaylistEntry) : Bool :=
  e.column < 16 && e.firstRow < 536870912 && e.lastRow < 536870912 && e.step < 32 &&
    e.passes < 65536 && (match e.ending with | .loop k => decide (k < 16) | _ => true)

/-- The item a disturbance leaves can be stored (R135); a playlist has at most 16 entries (R45). -/
def Corruption.fits : Corruption → Bool
  | .curvePoint _ _ _ _ => true
  | .ruleRecord _ f _ => f.fits
  | .playlistEntry _ i e _ => i < 16 && e.fits

/-- The taker without what is taken within its tick: none for the Rule Table. -/
def MarkTaker.taker : MarkTaker → Option LaneId
  | .ruleTable => none
  | .lane l _ => some l

/-- Nobody takes a mark twice (R151). -/
def takersDiffer (order : List MarkTaker) : Bool := decide (order.map MarkTaker.taker).Nodup

/-- The operands of an event among the replacements of a curve load (R79). -/
def CurveEvent.fits : CurveEvent → Bool
  | .tick _ => true
  | .mark _ order => takersDiffer order

/-- A command is well formed: nobody takes a mark twice, and a disturbance leaves an item that can be
stored. -/
def Instr.wellFormed : Instr → Bool
  | .cycleMark _ _ order => takersDiffer order
  | .storeCorruption _ item => item.fits
  | .loadCurve among => among.all CurveEvent.fits
  | _ => true

end Sys2Proof
end

