-- ==== Sys2Proof/Decode.lean ====
section
/-! DEFINITION. Decode.lean: the decoder of the opcode table's words (no row gives bits), the bit-field
helpers, and the reading of an inbound link word as the command it stands for (R148). -/

namespace Sys2Proof

/-- The field of `len` bits of `w` whose least significant bit is bit `lo` (00, Conventions: bit 0 is
the least significant). -/
def bitsAt (w lo len : Nat) : Nat := w / 2 ^ lo % 2 ^ len

/-- How many of the lowest `k` bits of a number are set. -/
def onesOf : Nat → Nat → Nat
  | 0, _ => 0
  | k + 1, n => n % 2 + onesOf k (n / 2)

/-- R148: the number of set bits among all 35 bits is odd. -/
def linkParityGood (w : LinkWord) : Bool := onesOf 35 w.toNat % 2 == 1

/-- R148, R149: the command that an inbound link word stands for. A word that fails its parity is a
bad word whatever its kind field holds. `wait` and `order` are the command's other operands. -/
def inboundCommand (wait : Nat) (order : List MarkTaker) (w : LinkWord) : Instr :=
  let data : Word := BitVec.ofNat 32 (bitsAt w.toNat 0 32)
  if linkParityGood w then
    match bitsAt w.toNat 32 2 with
    | 0 => .cycleMark wait data order
    | 1 => .sample wait data
    | 2 => .header wait data
    | _ => .payload wait data
  else .linkWordBad wait

/-- No row of spec/opcode_table.json gives bits, so no word spells a command (log 28). -/
def decodeTableWord (_nbits _w : Nat) : Option Instr := none

end Sys2Proof
end

