-- ==== Sys2Proof/Machine/State.lean ====
section
/-! DEFINITION. Machine/State.lean: every piece of state the spec gives the part, block by block, as
plain data, and the state after reset. -/

namespace Sys2Proof.Machine

/-! ## Lanes (01, R1 to R24) -/

/-- SOURCE (R1). -/
inductive Source where
  | live | replay | constant
  deriving DecidableEq, Repr

/-- TIMING (R1). -/
inductive Timing where
  | timed | cycle
  deriving DecidableEq, Repr

/-- BIT_ORDER (R1). -/
inductive BitOrder where
  | msbFirst | lsbFirst
  deriving DecidableEq, Repr

/-- PORT_KIND (R1). -/
inductive PortKind where
  | level | frame
  deriving DecidableEq, Repr

/-- FALLBACK (R1). -/
inductive Fallback where
  | hold | rest | live
  deriving DecidableEq, Repr

/-- UNDERRUN (R1). -/
inductive Underrun where
  | slip | keepPace
  deriving DecidableEq, Repr

/-- WORD_LENGTH: L is 10, 12, 14, 16 or 20 (R1). -/
inductive WordLength where
  | w10 | w12 | w14 | w16 | w20
  deriving DecidableEq, Repr

/-- L, the bits of a lane word (R1). -/
def WordLength.bits : WordLength → Nat
  | .w10 => 10
  | .w12 => 12
  | .w14 => 14
  | .w16 => 16
  | .w20 => 20

/-- The lane configuration record (R1). `curve = none` is CURVE NONE. -/
structure LaneConfig where
  source : Source
  constantCode : Int
  timing : Timing
  divisor : Nat
  cycleDivider : Nat
  wordLength : WordLength
  bitOrder : BitOrder
  portKind : PortKind
  portDivider : Nat
  restWord : OutCode
  fallback : Fallback
  curve : Option CurveId
  underrun : Underrun
  gateSeed : BitVec 16
  deriving DecidableEq, Repr

/-- The reset values of R1. -/
def LaneConfig.reset : LaneConfig where
  source := .constant
  constantCode := 0
  timing := .timed
  divisor := 1000
  cycleDivider := 1
  wordLength := .w16
  bitOrder := .msbFirst
  portKind := .level
  portDivider := 4
  restWord := 32768
  fallback := .hold
  curve := none
  underrun := .slip
  gateSeed := 1

/-- The five lane states (01, Lane states). -/
inductive LaneState where
  | off | primed | running | draining | halted
  deriving DecidableEq, Repr

/-- The lane's tick timer (R14, R15): stopped; a TIMED lane's next tick time and period in ns; or the
CYCLE_DIVIDER of a lane that counts marks from its start mark. -/
inductive Pacing where
  | stopped
  | timed (next period : Nat)
  | marks (divider : Nat)
  deriving DecidableEq, Repr

/-- The live holding register (R18). -/
structure LiveReg where
  value : Int
  fresh : Bool
  mark : Bool
  deriving DecidableEq, Repr

/-- The lane counters (R24). -/
structure LaneCounters where
  ticks : Nat
  stale : Nat
  superseded : Nat
  lostTicks : Nat
  underruns : Nat
  saturations : Nat
  portSuperseded : Nat
  deriving DecidableEq, Repr

/-- All lane counters at 0 (R13). -/
def LaneCounters.zero : LaneCounters := ⟨0, 0, 0, 0, 0, 0, 0⟩

/-! ## Replay (03, R45 to R67) -/

/-- A playlist entry as stored, with whether its stored check code agrees with its fields (R45, R52,
log 7). -/
structure StoredEntry where
  entry : PlaylistEntry
  codeOk : Bool
  deriving DecidableEq, Repr

/-- A place of the walk: entry number, pass number, row (R50). -/
structure Position where
  entry : Nat
  pass : Nat
  row : Nat
  deriving DecidableEq, Repr

/-- The fetch position (R50): a lane in OFF or HALTED has none. -/
inductive FetchPosition where
  | none
  | ended
  | at (p : Position)
  deriving DecidableEq, Repr

/-- One word that a fetch yields (R53, R55). -/
structure FetchWord where
  address : Nat
  position : Position
  endOfPass : Bool
  entryFinal : Bool
  deriving DecidableEq, Repr

/-- The fetch-in-flight record (R55). Each of its words holds one reserved place of the queue. -/
structure Fetch where
  words : List FetchWord
  voided : Bool
  deriving DecidableEq, Repr

/-- One word of the replay queue (R49). -/
structure QueueWord where
  word : Word
  place : FetchWord
  deriving DecidableEq, Repr

/-! ## Lane ports (10, R183 to R189) -/

/-- The SEQUENCE mode of a hand-over (R114). -/
inductive SequenceMode where
  | normal
  | hold
  | jump (k : Nat)
  deriving DecidableEq, Repr

/-- A word handed to a port with its line state and flags (R114, R183 PENDING). -/
structure PortWord where
  word : OutCode
  line : LineState
  swap : Bool
  checkBad : Bool
  sequence : SequenceMode
  deriving DecidableEq, Repr

/-- The word being shifted: its bit string, first bit first, its bit period in ns, the line state to
be strobed, and the time of its strobe (R183, R184). -/
structure Transfer where
  bits : List Bool
  bitPeriod : Nat
  line : LineState
  strobeAt : Nat
  deriving DecidableEq, Repr

/-- A lane port (R183). -/
structure Port where
  transfer : Option Transfer
  pending : Option PortWord
  seqCount : BitVec 4
  strobedLine : LineState
  present : Bool
  deriving DecidableEq, Repr

/-- One lane: its controller, its replay state, its active chain and its port. -/
structure Lane where
  config : LaneConfig
  state : LaneState
  startCycle : Word
  late : Bool
  pacing : Pacing
  markCount : Nat
  live : LiveReg
  lastWord : OutCode
  lastLine : LineState
  sentSinceStart : Bool
  prev : Option Int
  history : List OutCode
  gate : BitVec 16
  counters : LaneCounters
  playlist : List StoredEntry
  fetchPos : FetchPosition
  queue : List QueueWord
  fetch : Option Fetch
  debt : Nat
  counted : List BlockId
  chain : List RuleId
  port : Port
  deriving DecidableEq, Repr

/-- The rest word of a hard reset as the port shifts it: 32,768 as a LEVEL word of 16 bits, MSB first,
at 100 ns a bit, strobed 1,800 ns after the rising edge of RESET_N (R13, R183). -/
def Transfer.resetRest : Transfer where
  bits := true :: List.replicate 15 false
  bitPeriod := 100
  line := .normal
  strobeAt := 1800

/-- A lane in the hard-reset state (R13, R49, R183), its presence input as sensed. -/
def Lane.reset (present : Bool) : Lane where
  config := .reset
  state := .off
  startCycle := 0
  late := false
  pacing := .stopped
  markCount := 0
  live := ⟨0, false, false⟩
  lastWord := 32768
  lastLine := .normal
  sentSinceStart := false
  prev := none
  history := []
  gate := 1
  counters := .zero
  playlist := []
  fetchPos := .none
  queue := []
  fetch := none
  debt := 0
  counted := []
  chain := []
  port := ⟨none, none, 15, .normal, present⟩

/-! ## Rule Table (05, R86 to R113) -/

/-- The six rule states (R88). -/
inductive RuleState where
  | vacant | loaded | armed | triggered | active | spent
  deriving DecidableEq, Repr

/-- REMAINING (R87). -/
inductive Remaining where
  | count (n : Nat)
  | unlimited
  deriving DecidableEq, Repr

/-- A rule record with its working values and counters (R86, R87). `codeOk` is whether the stored
check code agrees with the fields (log 7). `baseSeen`: the base tick of R93 has come. `attemptDue`:
DELAY_COUNT is 0 and the attempt has fallen due (R99, row RULE_DELAY_END). `endDue`: DURATION_COUNT
has reached 0 and the activation ends next (R105, row RULE_DURATION_END, log 9). `late`: the rule was armed
when its AT_CYCLE number was already reached, and a mark of any number triggers it (R95, log 46). -/
structure Rule where
  state : RuleState
  fields : RuleFields
  codeOk : Bool
  delayCount : Nat
  durationCount : Nat
  remaining : Remaining
  noise : BitVec 23
  ramp : Int
  activations : Nat
  missed : Nat
  applied : Nat
  baseSeen : Bool
  attemptDue : Bool
  endDue : Bool
  late : Bool
  deriving DecidableEq, Repr

/-- A VACANT rule holds 0 or the first listed value in every field (R86, R90, R119). -/
def Rule.vacant : Rule where
  state := .vacant
  fields := ⟨0, 0, 0, 0, .stuck 0, .immediate, .ticks, 0, 0, 0, 0, true⟩
  codeOk := true
  delayCount := 0
  durationCount := 0
  remaining := .count 0
  noise := 1
  ramp := 0
  activations := 0
  missed := 0
  applied := 0
  baseSeen := false
  attemptDue := false
  endDue := false
  late := false

/-! ## Curve Store (04, R73) -/

/-- A point with whether its stored check code agrees with it (R73, log 7). -/
structure CurvePoint where
  value : OutCode
  codeOk : Bool
  deriving DecidableEq, Repr

/-- The hard-reset curve: P[k] = min(k × 16,384, 1,048,575) (R73). -/
def resetCurve : Vector CurvePoint 65 :=
  Vector.ofFn fun k => ⟨BitVec.ofNat 20 (min (k.val * 16384) 1048575), true⟩

/-! ## Trace Directory and TMC (02, R25 to R38) -/

/-- STATE of a descriptor (R34). -/
inductive BlockState where
  | vacant | filling | ready
  deriving DecidableEq, Repr

/-- A block descriptor (R34). -/
structure Block where
  state : BlockState
  base : Nat
  rows : Nat
  columns : Nat
  inUse : Nat
  deriving DecidableEq, Repr

/-- A VACANT descriptor holds 0 in its fields (R34). -/
def Block.vacant : Block := ⟨.vacant, 0, 0, 0, 0⟩

/-- The fill engine's write in hand (R36, R37): none, one of the head's fill, or one whose
completion is discarded. -/
inductive FillRequest where
  | idle | writing | discarding
  deriving DecidableEq, Repr

/-- The Trace Directory with its fill queue and fill engine (R34, R36). -/
structure Directory where
  blocks : Vector Block 128
  fillQueue : List BlockId
  fillDone : Nat
  fillReq : FillRequest
  deriving DecidableEq, Repr

/-- Who asks the TMC (R28). -/
inductive Requester where
  | lane (l : LaneId)
  | command
  | fill
  deriving DecidableEq, Repr

/-- A request (R28): the addresses concerned, in play order for a fetch and in address or payload order
otherwise; for a write their data. Bank group, bank, memory row and aligned group follow from the
addresses by R25, SHORT or LONG by R28. -/
structure Request where
  requester : Requester
  addresses : List Nat
  data : Option (List Word)
  closeAfter : Bool
  issued : Nat
  passes : Nat
  deriving DecidableEq, Repr

/-- The open-row cases (R27). -/
inductive RowCase where
  | hit | closed | miss
  deriving DecidableEq, Repr

/-- An access in flight: its request, its case at grant and its completion time (R31). -/
structure Access where
  request : Request
  rowCase : RowCase
  doneAt : Nat
  deriving DecidableEq, Repr

/-- One bank group (R27, R31, R32). `refreshCount` is how many refreshes of the group have fallen due. -/
structure BankGroup where
  openRows : Vector (Option Nat) 2
  access : Option Access
  busyUntil : Option Nat
  refreshWaiting : Bool
  refreshUntil : Option Nat
  refreshCount : Nat
  deriving DecidableEq, Repr

/-- A bank group after a hard reset (R27, R33). -/
def BankGroup.reset : BankGroup := ⟨Vector.replicate 2 none, none, none, false, none, 0⟩

/-- The TMC (R27 to R32): its bank groups and its pending set in order of issue. -/
structure Tmc where
  groups : Vector BankGroup 8
  requests : List Request
  deriving DecidableEq, Repr

/-- Trace memory (R25, R26): the words written, by strictly rising address. An unlisted address holds
an unknown word of the `powerOns`-th power-on (log 6). -/
structure Memory where
  cells : List (Nat × Word)
  powerOns : Nat
  deriving DecidableEq, Repr

/-! ## Command Unit (09, R165 to R182) -/

/-- The marks of a record (R155, R157). -/
inductive RecordMark where
  | complete | corrupt | truncated
  deriving DecidableEq, Repr

/-- The states of a command-queue place (R165). -/
inductive PlaceState where
  | assembling | waiting | inHand | answered
  deriving DecidableEq, Repr

/-- A command-queue place with its record: header fields, payload so far, mark (R155, R165). -/
structure Place where
  state : PlaceState
  code : Nat
  tag : Nat
  length : Nat
  index : Nat
  payload : List Word
  mark : RecordMark
  deriving DecidableEq, Repr

/-- ORDER of a write window (R39). -/
inductive WalkOrder where
  | rowMajor | columnMajor
  deriving DecidableEq, Repr

/-- The write window (R39): ranges as clamped, pointer, and the wrap count of the latest record. -/
structure Window where
  block : BlockId
  firstRow : Nat
  lastRow : Nat
  firstColumn : Nat
  lastColumn : Nat
  order : WalkOrder
  poison : Bool
  row : Nat
  column : Nat
  wraps : Nat
  deriving DecidableEq, Repr

/-- The statuses of a reply (R170), each REFUSED reason a status of its own. -/
inductive Status where
  | done | adjusted | late | doneErrors
  | unknownCommand | badLength | badIndex | badValue | laneBusy | ruleBusy | blockBusy | noBlock
  | overlap | fillBusy | notReady | noWindow | noPort | corrupt | truncated
  deriving DecidableEq, Repr

/-- A reply (R171); its attention flag is decided when its header is sent (R143). -/
structure Reply where
  status : Status
  tag : Nat
  code : Nat
  payload : List Word
  deriving DecidableEq, Repr

/-- The work of a record in hand that is not yet answered: a trace write (its gatherings, the first one
requested, R41), or a trace read (its groups, the first one requested, R44). -/
inductive Job where
  | write (gatherings : List (List (Nat × Word))) (reply : Reply)
  | read (groups : List (List Nat)) (got : List Word) (cut errors : Bool)
  deriving DecidableEq, Repr

/-- The state of the Command Unit (R166). -/
inductive UnitState where
  | ready
  | held (job : Job)
  | blocked (reply : Reply)
  deriving DecidableEq, Repr

/-- The command queue, the unit and the write window (00, Blocks). -/
structure CommandUnit where
  queue : List Place
  unit : UnitState
  window : Option Window
  deriving DecidableEq, Repr

/-! ## Link Port and Return Sender (08, R148 to R164) -/

/-- LINK_STATE (R150). -/
inductive LinkState where
  | waiting | up | lost
  deriving DecidableEq, Repr

/-- The record assembler (R155). The open record stands in its command-queue place. -/
inductive Assembler where
  | idle
  | opened (expected : Nat)
  | skipping (left : Nat)
  deriving DecidableEq, Repr

/-- The Link Port (R150). `lastMark` is the arrival time in ns of the latest mark taken, from which the
silence timer runs in UP; `silenceLimit` is in µs. -/
structure Link where
  state : LinkState
  currentCycle : Word
  silenceLimit : Nat
  lastMark : Nat
  assembler : Assembler
  badWords : Nat
  stray : Nat
  badLane : Nat
  cycleJumps : Nat
  overrun : Nat
  deriving DecidableEq, Repr

/-- The notice kinds (R162). -/
inductive NoticeKind where
  | laneEnded | ruleEvent | latchSet | blockReady | linkLost | cycleJump | overrun
  deriving DecidableEq, Repr

/-- A notice (R162). -/
structure Notice where
  kind : NoticeKind
  payload : List Word
  deriving DecidableEq, Repr

/-- The Return Sender (R159). `inTransfer` holds the words still to go of the record in transfer,
`slotEnd` the time at which the word now being sent ends, `wire` that word (R148, R160). -/
structure ReturnSender where
  replies : List Reply
  notices : List Notice
  taps : List Word
  tapLanes : List LaneId
  mask : BitVec 7
  noticesDropped : Nat
  tapsDropped : Nat
  inTransfer : Option (List Word)
  slotEnd : Option Nat
  wire : Option LinkWord
  deriving DecidableEq, Repr

/-! ## Fault Latch (07, R135 to R147) -/

/-- What an error's descriptor names, by kind (R136). -/
inductive ErrorDetail where
  | traceReplay (l : LaneId) (address : Nat)
  | traceRead (tag : Nat) (address : Nat)
  | linkWord
  | ruleCheck (l : LaneId) (r : RuleId)
  | curveCheck (l : LaneId) (c : CurveId) (point : Nat)
  | playlistCheck (l : LaneId) (entry : Nat)
  deriving DecidableEq, Repr

/-- A descriptor: what failed, and the current cycle at detection (R136). -/
structure Descriptor where
  detail : ErrorDetail
  cycle : Word
  deriving DecidableEq, Repr

/-- LATCH_STATE with the descriptor held (R139). -/
inductive LatchState where
  | empty
  | held (d : Descriptor)
  | heldNested (d : Descriptor)
  deriving DecidableEq, Repr

/-- The Fault Latch (R139). -/
structure Latch where
  state : LatchState
  softLater : Nat
  hardLater : Nat
  deriving DecidableEq, Repr

/-! ## The part -/

/-- The state of the part. `now` is in ns since the rising edge of RESET_N (log 2); `resetLow` says
that RESET_N is low (R13). The model's own fields are `pending`, the queue of commands that wait, and
`freeCount`, how many unknown words have been drawn (log 6). -/
structure State where
  now : Nat
  resetLow : Bool
  link : Link
  ret : ReturnSender
  cmd : CommandUnit
  lanes : Vector Lane 24
  rules : Vector Rule 256
  curves : Vector (Vector CurvePoint 65) 16
  dir : Directory
  tmc : Tmc
  mem : Memory
  latch : Latch
  freeCount : Nat
  pending : List Instr
  deriving DecidableEq, Repr

/-- The spec stops the part nowhere (integrity errors are states of lanes and of the Fault Latch, R135
to R141), so no fault exists: the type has no constructor. -/
inductive Fault where
  deriving DecidableEq, Repr

/-- Why a command is refused. -/
inductive Refusal where
  /-- Raised by `exec`'s arm of a command that has no meaning yet. Safe: nothing follows from it. -/
  | notModelled (mnemonic : String)
  /-- Raised by the meaning of the named row where the spec says that its event does not occur in the
  present state: a timer that does not run, a completion with nothing in flight, a command that does
  not stand at the head of the queue (log 3). Safe: the part never takes that event there. -/
  | notPossible (mnemonic : String)
  deriving DecidableEq, Repr

/-- The Link Port after a hard reset (R150). -/
def Link.reset : Link := ⟨.waiting, 0, 1000, 0, .idle, 0, 0, 0, 0, 0⟩

/-- The Return Sender after a hard reset (R159): every kind enabled, everything else empty. -/
def ReturnSender.reset : ReturnSender := ⟨[], [], [], [], 127, 0, 0, none, none, none⟩

/-- The Command Unit after a hard reset (R165, R181). -/
def CommandUnit.reset : CommandUnit := ⟨[], .ready, none⟩

/-- The directory after a hard reset (R34, R36). -/
def Directory.reset : Directory := ⟨Vector.replicate 128 .vacant, [], 0, .idle⟩

/-- The TMC after a hard reset (R33). -/
def Tmc.reset : Tmc := ⟨Vector.replicate 8 .reset, []⟩

/-- The latch after a hard reset (R139). -/
def Latch.reset : Latch := ⟨.empty, 0, 0⟩

/-- The hard-reset state while RESET_N is low (R13): `present` gives the presence inputs, `mem` the
trace memory. -/
def State.hardReset (present : LaneId → Bool) (mem : Memory) (freeCount : Nat)
    (pending : List Instr) : State where
  now := 0
  resetLow := true
  link := .reset
  ret := .reset
  cmd := .reset
  lanes := Vector.ofFn fun l => Lane.reset (present l)
  rules := Vector.replicate 256 .vacant
  curves := Vector.replicate 16 resetCurve
  dir := .reset
  tmc := .reset
  mem := mem
  latch := .reset
  freeCount := freeCount
  pending := pending

/-- A lane right after the rising edge of RESET_N: its port shifts the rest word (R13, R183). -/
def Lane.afterReset (present : Bool) : Lane :=
  let lane := Lane.reset present
  { lane with port := { lane.port with transfer := some .resetRest } }

/-- The machine right after reset: the first power-on, at the moment after the rising edge of RESET_N
(R13). No converter is sensed: DESIGN CHOICE, log 5. Unsafe for claims that rest on the presence
inputs of this one state. -/
def State.reset : State :=
  { State.hardReset (fun _ => false) ⟨[], 0⟩ 0 [] with
    resetLow := false
    lanes := Vector.replicate 24 (Lane.afterReset false) }

end Sys2Proof.Machine
end

