-- ==== Sys2Proof/Machine/Flags.lean ====
section
/-! DEFINITION. Machine/Flags.lean: check bits, parity, check byte, serial comparison of cycle numbers,
and the attention flag. -/

namespace Sys2Proof.Machine

/-- R26: CHECK_LOW makes the number of set bits among bits 0 to 15 and itself even. -/
def checkLow (w : Nat) : Nat := onesOf 16 w % 2

/-- R26: CHECK_HIGH does the same for bits 16 to 29. -/
def checkHigh (w : Nat) : Nat := onesOf 14 (w / 65536) % 2

/-- R26, R40: the trace word stored for a payload word: its 30 data bits with computed check bits, both
inverted under POISON. Check bits that the payload word carries are ignored. -/
def sealTraceWord (poison : Bool) (w : Word) : Word :=
  let d := bitsAt w.toNat 0 30
  let low := if poison then 1 - checkLow d else checkLow d
  let high := if poison then 1 - checkHigh d else checkHigh d
  BitVec.ofNat 32 (d + low * 2 ^ 30 + high * 2 ^ 31)

/-- R26: a word fails its check when either check bit disagrees with its half of the data bits. -/
def traceWordFails (w : Word) : Bool :=
  let n := w.toNat
  bitsAt n 30 1 != checkLow n || bitsAt n 31 1 != checkHigh n

/-- R148: the link word of a kind and its 32 data bits, with the parity bit that makes the number of set
bits odd. -/
def makeLinkWord (kind : Nat) (data : Word) : LinkWord :=
  let body := data.toNat + kind * 2 ^ 32
  BitVec.ofNat 35 (body + (1 - onesOf 34 body % 2) * 2 ^ 34)

/-- 00, Conventions: the cycle number n is reached by the current cycle c when (c − n) mod 2³² < 2³¹. A
number exactly 2³¹ from n does not reach n (R95); start cycles follow R6 there (`startReached`, log 44). -/
def cycleReached (c n : Word) : Bool := (c - n).toNat < 2147483648

/-- R6: the start cycle n is reached by the cycle c: as the conventions say, and also where n is exactly 2³¹
ahead of c, which R6 counts as already reached. The conventions' formula says otherwise there, and the model
follows R6 for start cycles (DEDUCED, log 44). -/
def startReached (c n : Word) : Bool := (c - n).toNat ≤ 2147483648

/-- R186: the correct check byte: the complement of the sum of the bytes modulo 256. -/
def checkByte (bytes : List Nat) : Nat := 255 - bytes.sum % 256

/-- R143: attention is set when the latch is HELD or HELD_NESTED. -/
def Latch.attention (k : Latch) : Bool :=
  match k.state with
  | .empty => false
  | .held _ => true
  | .heldNested _ => true

/-- 00, Conventions: "+1" on a statistics counter saturates at 4,294,967,295. -/
def countUp (n : Nat) : Nat := min (n + 1) Config.counterMax

/-- 00, Conventions: sat() clamps to the engineering-code range. -/
def sat (x : Int) : Int := max codeMin (min x codeMax)

end Sys2Proof.Machine
end

