-- ==== Sys2Proof/Machine/Operands.lean ====
section
/-! DEFINITION. Machine/Operands.lean: every layout of Lane Ports and Formats (R190): the fields of
inbound words, parameters of commands, headers, and the payloads of replies and notices. -/

namespace Sys2Proof.Machine

/-! ## Fields -/

/-- A word made of fields, each a value and the place of its least significant bit (R190: bits that no
field occupies are sent as 0). -/
def packWord (fields : List (Nat × Nat)) : Word :=
  BitVec.ofNat 32 (fields.foldr (fun p acc => p.1 * 2 ^ p.2 + acc) 0)

/-- A field of a payload word. -/
def field (w : Word) (lo len : Nat) : Nat := bitsAt w.toNat lo len

/-- A number as a whole word. -/
def numberWord (n : Nat) : Word := BitVec.ofNat 32 n

/-- A flag as a bit. -/
def flagBit (b : Bool) : Nat := if b then 1 else 0

/-- R190: an engineering code in bits 23 to 0, two's complement; bits 31 to 24 are not read. -/
def signedField (w : Word) : Int := (BitVec.ofNat 24 w.toNat).toInt

/-- R190: an engineering code as sent, bits 31 to 24 copies of bit 23. -/
def signedWord (e : Int) : Word := (BitVec.ofInt 24 e).signExtend 32

/-- The n-th payload word; a payload of checked length holds it. -/
def param (payload : List Word) (n : Nat) : Word := payload.getD n 0

/-- A number as a value of a finite range, if it lies in it. -/
def toFin? (n bound : Nat) : Option (Fin bound) :=
  if h : n < bound then some ⟨n, h⟩ else none

/-! ## Command codes, statuses, kinds -/

/-- The 24 commands (R168). -/
inductive Command where
  | identify | status | reset | setReporting | configLane | setPlaylist | startLanes | stopLanes
  | resetLane | readLane | loadCurve | defineBlock | deleteBlock | readDirectory | writeTrace
  | readTrace | loadRule | clearRule | arm | disarm | fire | readRule | readLatch | clearLatch
  deriving DecidableEq, Repr

/-- The command codes (10, Command codes). -/
def commandOf (code : Nat) : Option Command :=
  match code with
  | 0x01 => some .identify
  | 0x02 => some .status
  | 0x03 => some .reset
  | 0x04 => some .setReporting
  | 0x10 => some .configLane
  | 0x11 => some .setPlaylist
  | 0x12 => some .startLanes
  | 0x13 => some .stopLanes
  | 0x14 => some .resetLane
  | 0x15 => some .readLane
  | 0x20 => some .loadCurve
  | 0x30 => some .defineBlock
  | 0x31 => some .deleteBlock
  | 0x32 => some .readDirectory
  | 0x33 => some .writeTrace
  | 0x34 => some .readTrace
  | 0x40 => some .loadRule
  | 0x41 => some .clearRule
  | 0x42 => some .arm
  | 0x43 => some .disarm
  | 0x44 => some .fire
  | 0x45 => some .readRule
  | 0x50 => some .readLatch
  | 0x51 => some .clearLatch
  | _ => none

/-- R168: the least and the greatest payload length of each command. -/
def Command.lengths : Command → Nat × Nat
  | .identify => (0, 0)
  | .status => (0, 0)
  | .reset => (0, 0)
  | .setReporting => (3, 3)
  | .configLane => (4, 4)
  | .setPlaylist => (0, 63)
  | .startLanes => (2, 2)
  | .stopLanes => (2, 2)
  | .resetLane => (0, 0)
  | .readLane => (0, 0)
  | .loadCurve => (1, 63)
  | .defineBlock => (3, 3)
  | .deleteBlock => (0, 0)
  | .readDirectory => (1, 1)
  | .writeTrace => (0, 63)
  | .readTrace => (3, 3)
  | .loadRule => (7, 7)
  | .clearRule => (0, 0)
  | .arm => (1, 1)
  | .disarm => (1, 1)
  | .fire => (0, 0)
  | .readRule => (0, 0)
  | .readLatch => (0, 0)
  | .clearLatch => (0, 0)

/-- 10, Status codes. -/
def Status.code : Status → Nat
  | .done => 0x00
  | .adjusted => 0x01
  | .late => 0x02
  | .doneErrors => 0x03
  | .unknownCommand => 0x81
  | .badLength => 0x82
  | .badIndex => 0x83
  | .badValue => 0x84
  | .laneBusy => 0x85
  | .ruleBusy => 0x86
  | .blockBusy => 0x87
  | .noBlock => 0x88
  | .overlap => 0x89
  | .fillBusy => 0x8A
  | .notReady => 0x8B
  | .noWindow => 0x8C
  | .noPort => 0x8D
  | .corrupt => 0x8E
  | .truncated => 0x8F

/-- 10, Notice kinds. -/
def NoticeKind.code : NoticeKind → Nat
  | .laneEnded => 1
  | .ruleEvent => 2
  | .latchSet => 3
  | .blockReady => 4
  | .linkLost => 5
  | .cycleJump => 6
  | .overrun => 7

/-- R188: the code of a line state: the second code line is its upper bit. -/
def lineCode : LineState → Nat
  | .normal => 0
  | .openLine => 1
  | .shortLow => 2
  | .shortHigh => 3

/-! ## Headers, samples, taps (10, Data of the word kinds) -/

/-- The header of a reply (R171). -/
def replyHeader (attention : Bool) (r : Reply) : Word :=
  packWord [(r.status.code, 24), (r.tag, 16), (r.payload.length, 10), (flagBit attention, 9), (0, 8),
    (r.code, 0)]

/-- The header of a notice (R162): 0 in its status and tag fields. -/
def noticeHeader (attention : Bool) (n : Notice) : Word :=
  packWord [(0, 24), (0, 16), (n.payload.length, 10), (flagBit attention, 9), (1, 8), (n.kind.code, 0)]

/-- The data of a TAP word (R163). -/
def tapWord (l : LaneId) (line : LineState) (held faulted : Bool) (word : OutCode) : Word :=
  packWord [(l.val, 27), (lineCode line, 25), (flagBit held, 24), (flagBit faulted, 23), (word.toNat, 0)]

/-! ## CONFIG_LANE (R1, R2, R3) -/

/-- SOURCE by code. -/
def sourceOf : Nat → Option Source
  | 0 => some .live
  | 1 => some .replay
  | 2 => some .constant
  | _ => none

/-- FALLBACK by code. -/
def fallbackOf : Nat → Option Fallback
  | 0 => some .hold
  | 1 => some .rest
  | 2 => some .live
  | _ => none

/-- WORD_LENGTH holds 10, 12, 14, 16 or 20 (R190). -/
def wordLengthOf : Nat → Option WordLength
  | 10 => some .w10
  | 12 => some .w12
  | 14 => some .w14
  | 16 => some .w16
  | 20 => some .w20
  | _ => none

/-- CURVE: 0 to 15, or 31 for NONE. -/
def curveOf (n : Nat) : Option (Option CurveId) :=
  if n = 31 then some none
  else match toFin? n 16 with
    | some c => some (some c)
    | none => none

/-- R3: b, the bits that a word takes at the port: L, or the frame length. -/
def portBits (kind : PortKind) (len : WordLength) : Nat :=
  match kind with
  | .level => len.bits
  | .frame =>
    match len with
    | .w10 => 24
    | .w12 => 24
    | .w14 => 32
    | .w16 => 32
    | .w20 => 32

/-- R3: the port bit period, 2(d + 1) × 10 ns. -/
def bitPeriodOf (divider : Nat) : Nat := 2 * (divider + 1) * 10

/-- R3: the word time, (b + 2) bit periods. -/
def wordTime (kind : PortKind) (len : WordLength) (divider : Nat) : Nat :=
  (portBits kind len + 2) * bitPeriodOf divider

/-- R3: DIVISOR raised to ⌊word time / 100 ns⌋ + 1 where its period is not longer than the word time. -/
def divisorFor (divisor time : Nat) : Nat :=
  if divisor * 100 ≤ time then time / 100 + 1 else divisor

/-- R2, R3: the configuration taken from a CONFIG_LANE payload and whether a field was adjusted; none
where the record is refused BAD_VALUE. A GATE_SEED of 0 is stored as 1 without an adjustment. -/
def decodeConfig (p : List Word) : Option (LaneConfig × Bool) :=
  let w1 := param p 1
  let w2 := param p 2
  let w3 := param p 3
  match sourceOf (field w3 0 2), fallbackOf (field w3 10 2), wordLengthOf (field w3 3 5),
      curveOf (field w3 13 5) with
  | some source, some fallback, some len, some curve =>
    let kind : PortKind := if field w3 9 1 = 0 then .level else .frame
    let rawDivider := field w2 20 10
    let divider := min rawDivider 255
    let rawCycle := field w3 18 7
    let cycle := max 1 (min rawCycle 64)
    let rawRest := field w2 0 20
    let rest := min rawRest (2 ^ len.bits - 1)
    let rawDivisor := field w1 0 16
    let divisor := divisorFor (max rawDivisor 10) (wordTime kind len divider)
    let seed := field w1 16 16
    some ({ source := source
            constantCode := signedField (param p 0)
            timing := if field w3 2 1 = 0 then .timed else .cycle
            divisor := divisor
            cycleDivider := cycle
            wordLength := len
            bitOrder := if field w3 8 1 = 0 then .msbFirst else .lsbFirst
            portKind := kind
            portDivider := divider
            restWord := BitVec.ofNat 20 rest
            fallback := fallback
            curve := curve
            underrun := if field w3 12 1 = 0 then .slip else .keepPace
            gateSeed := BitVec.ofNat 16 (if seed = 0 then 1 else seed) },
          rawDivider != divider || rawCycle != cycle || rawRest != rest || rawDivisor != divisor)
  | _, _, _, _ => none

/-- The configuration record in the CONFIG_LANE layout. -/
def encodeConfig (c : LaneConfig) : List Word :=
  [ signedWord c.constantCode,
    packWord [(c.divisor, 0), (c.gateSeed.toNat, 16)],
    packWord [(c.restWord.toNat, 0), (c.portDivider, 20)],
    packWord
      [ (match c.source with | .live => 0 | .replay => 1 | .constant => 2, 0),
        (match c.timing with | .timed => 0 | .cycle => 1, 2),
        (c.wordLength.bits, 3),
        (match c.bitOrder with | .msbFirst => 0 | .lsbFirst => 1, 8),
        (match c.portKind with | .level => 0 | .frame => 1, 9),
        (match c.fallback with | .hold => 0 | .rest => 1 | .live => 2, 10),
        (match c.underrun with | .slip => 0 | .keepPace => 1, 12),
        (match c.curve with | none => 31 | some k => k.val, 13),
        (c.cycleDivider, 18) ] ]

/-! ## SET_PLAYLIST (R45, R46) -/

/-- One entry from its three payload words; none where DIRECTION or END holds no defined value,
FIRST_ROW is above LAST_ROW, STEP is outside 1 to 16, or LOOP names no entry of the `n` entries. -/
def decodeEntry (n : Nat) (a b c : Word) : Option PlaylistEntry :=
  let firstRow := field a 0 29
  let lastRow := field b 0 29
  let step := field a 30 2 * 8 + field b 29 3
  let code := field c 27 5
  let ending : Option EntryEnd :=
    if code < 16 then (if code < n then some (.loop code) else none)
    else if code = 16 then some .next
    else if code = 17 then some .stop
    else none
  match ending, toFin? (field c 16 7) 128 with
  | some e, some block =>
    if firstRow ≤ lastRow ∧ 1 ≤ step ∧ step ≤ 16 then
      some { block := block
             column := field c 23 4
             firstRow := firstRow
             lastRow := lastRow
             direction := if field a 29 1 = 0 then .forward else .reverse
             step := step
             passes := field c 0 16
             ending := e }
    else none
  | _, _ => none

/-- The payload words of a SET_PLAYLIST record, three to an entry (R46). -/
def entryWords : List Word → List (Word × Word × Word)
  | a :: b :: c :: rest => (a, b, c) :: entryWords rest
  | _ => []

/-! ## LOAD_RULE (R86, R89, R116) -/

/-- LINE's parameter, coded as in R188, where 0 is refused. -/
def lineParam : Nat → Option LineState
  | 1 => some .openLine
  | 2 => some .shortLow
  | 3 => some .shortHigh
  | _ => none

/-- A number of a whole word, if it is at most `top` (log 19). -/
def upTo (top : Nat) (w : Word) : Option Nat := if w.toNat ≤ top then some w.toNat else none

/-- A 20-bit mask or code of a whole word, if it is at most 1,048,575 (R116, log 19). -/
def maskParam (w : Word) : Option OutCode :=
  if w.toNat ≤ 1048575 then some (BitVec.ofNat 20 w.toNat) else none

/-- R116: the action of a kind code and its three parameters, in the order of R116; none where the kind
holds no defined value or a parameter is outside its range. -/
def decodeAction (kind : Nat) (p1 p2 p3 : Word) : Option Action :=
  let _ := p3
  match kind with
  | 0 => some (.stuck (signedField p1))
  | 1 => some (.offset (signedField p1))
  | 2 => some (.gain (BitVec.ofNat 16 p1.toNat).toInt (signedField p2))
  | 3 => match upTo 8388607 p1, upTo 8388607 p2 with
    | some a, some seed => some (.noise a seed)
    | _, _ => none
  | 4 => match upTo 8388607 p2 with
    | some limit => some (.ramp (signedField p1) limit)
    | none => none
  | 5 => if signedField p1 ≤ signedField p2 then some (.clamp (signedField p1) (signedField p2)) else none
  | 6 => some .invert
  | 7 => match maskParam p1, maskParam p2 with
    | some a, some o => some (.force a o)
    | _, _ => none
  | 8 => match maskParam p1 with
    | some m => some (.flip m)
    | none => none
  | 9 => match maskParam p1 with
    | some c => some (.codeStuck c)
    | none => none
  | 10 => some .orderSwap
  | 11 => some .drop
  | 12 => some .freeze
  | 13 => if 1 ≤ p1.toNat ∧ p1.toNat ≤ 64 then some (.delay p1.toNat) else none
  | 14 => match lineParam p1.toNat with
    | some st => some (.line st)
    | none => none
  | 15 => some .checkBad
  | 16 => some .seqHold
  | 17 => if 1 ≤ p1.toNat ∧ p1.toNat ≤ 14 then some (.seqJump p1.toNat) else none
  | _ => none

/-- R86: the action's class. -/
def classOf : Action → ActionClass
  | .stuck _ => .value
  | .offset _ => .value
  | .gain _ _ => .value
  | .noise _ _ => .value
  | .ramp _ _ => .value
  | .clamp _ _ => .value
  | .invert => .value
  | .force _ _ => .code
  | .flip _ => .code
  | .codeStuck _ => .code
  | .orderSwap => .code
  | .drop => .time
  | .freeze => .time
  | .delay _ => .time
  | .line _ => .line
  | .checkBad => .frame
  | .seqHold => .frame
  | .seqJump _ => .frame

/-- The kind code and the three parameter words of an action; a parameter it does not use is 0 (R116). -/
def encodeAction : Action → Nat × Word × Word × Word
  | .stuck v => (0, signedWord v, 0, 0)
  | .offset d => (1, signedWord d, 0, 0)
  | .gain g d => (2, numberWord (BitVec.ofInt 16 g).toNat, signedWord d, 0)
  | .noise a seed => (3, numberWord a, numberWord seed, 0)
  | .ramp s limit => (4, signedWord s, numberWord limit, 0)
  | .clamp lo hi => (5, signedWord lo, signedWord hi, 0)
  | .invert => (6, 0, 0, 0)
  | .force a o => (7, numberWord a.toNat, numberWord o.toNat, 0)
  | .flip m => (8, numberWord m.toNat, 0, 0)
  | .codeStuck c => (9, numberWord c.toNat, 0, 0)
  | .orderSwap => (10, 0, 0, 0)
  | .drop => (11, 0, 0, 0)
  | .freeze => (12, 0, 0, 0)
  | .delay n => (13, numberWord n, 0, 0)
  | .line st => (14, numberWord (lineCode st), 0, 0)
  | .checkBad => (15, 0, 0, 0)
  | .seqHold => (16, 0, 0, 0)
  | .seqJump k => (17, numberWord k, 0, 0)

/-- R86, R89: the trigger of a kind code, its qualifier and its value word, in the rule `own`; none
where a part holds no defined value or ON_RULE names the rule's own index. -/
def decodeTrigger (own : Nat) (kind qualifier : Nat) (value : Word) : Option Trigger :=
  match kind with
  | 0 => some .immediate
  | 1 => some (.atCycle value)
  | 2 =>
    if qualifier < 16 then some (.onMark (some qualifier))
    else if qualifier = 16 then some (.onMark none)
    else none
  | 3 =>
    match qualifier with
    | 0 => some (.onLevel (signedField value) .rising)
    | 1 => some (.onLevel (signedField value) .falling)
    | 2 => some (.onLevel (signedField value) .either)
    | _ => none
  | 4 =>
    if value.toNat = own then none
    else
      match toFin? value.toNat 256, qualifier with
      | some r, 0 => some (.onRule r .active)
      | some r, 1 => some (.onRule r .ended)
      | _, _ => none
  | 5 => if value.toNat < 8 then some (.onCommand value.toNat) else none
  | _ => none

/-- The kind code, qualifier and value word of a trigger. -/
def encodeTrigger : Trigger → Nat × Nat × Word
  | .immediate => (0, 0, 0)
  | .atCycle n => (1, 0, n)
  | .onMark none => (2, 16, 0)
  | .onMark (some tag) => (2, tag, 0)
  | .onLevel t .rising => (3, 0, signedWord t)
  | .onLevel t .falling => (3, 1, signedWord t)
  | .onLevel t .either => (3, 2, signedWord t)
  | .onRule r .active => (4, 0, numberWord r.val)
  | .onRule r .ended => (4, 1, numberWord r.val)
  | .onCommand c => (5, 0, numberWord c)

/-- R89: the fields taken from a LOAD_RULE payload for the rule `own`, and whether INTERMITTENCY was
adjusted (a FREEZE rule is stored with INTERMITTENCY 0); none where the record is refused BAD_VALUE.
NOTIFY is coded yes 0, no 1, the order of R86 (R190, log 15). -/
def decodeRule (own : Nat) (p : List Word) : Option (RuleFields × Bool) :=
  let w0 := param p 0
  let w1 := param p 1
  let w2 := param p 2
  let lane := field w0 0 5
  let watch := field w0 5 5
  match decodeAction (field w1 27 5) (param p 4) (param p 5) (param p 6),
      decodeTrigger own (field w1 24 3) (field w2 24 8) (param p 3) with
  | some action, some trigger =>
    if lane < 24 ∧ watch < 24 then
      let raw := field w0 20 8
      let gate := if action = .freeze then 0 else raw
      some ({ lane := lane
              watch := watch
              group := field w0 10 4
              priority := field w0 14 4
              action := action
              trigger := trigger
              unit := if field w0 18 1 = 0 then .ticks else .cycles
              delay := field w1 0 16
              duration := field w2 0 24
              repeats := field w1 16 8
              intermittency := gate
              notify := field w0 19 1 = 0 },
            raw != gate)
    else none
  | _, _ => none

/-- A rule record in the LOAD_RULE layout. -/
def encodeRule (f : RuleFields) : List Word :=
  let a := encodeAction f.action
  let t := encodeTrigger f.trigger
  [ packWord
      [ (f.lane, 0), (f.watch, 5), (f.group, 10), (f.priority, 14),
        (match f.unit with | .ticks => 0 | .cycles => 1, 18), (flagBit (!f.notify), 19),
        (f.intermittency, 20) ],
    packWord [(f.delay, 0), (f.repeats, 16), (t.1, 24), (a.1, 27)],
    packWord [(f.duration, 0), (t.2.1, 24)],
    t.2.2, a.2.1, a.2.2.1, a.2.2.2 ]

/-! ## SET_REPORTING (R177) -/

/-- The tap lanes of a tap list: the first `count` of its four places. -/
def tapPlacesOf (w : Word) : List Nat :=
  [field w 0 5, field w 5 5, field w 10 5, field w 15 5].take (field w 20 3)

/-- A tap lane set in the tap list's layout (log 16). -/
def tapListWord (lanes : List LaneId) : Word :=
  packWord ((lanes.map Fin.val).zip [0, 5, 10, 15] ++ [(lanes.length, 20)])

/-! ## The latch descriptor (R136; 10, Reply and notice payloads) -/

/-- Words 0 to 2 of the latch payloads. -/
def latchWords (k : LatchState) : List Word :=
  let words (st : Nat) (d : Descriptor) : List Word :=
    match d.detail with
    | .traceReplay l a =>
      [packWord [(st, 0), (0, 2), (0, 5), (1, 6), (0, 7), (l.val, 8)], d.cycle, numberWord a]
    | .traceRead tag a =>
      [packWord [(st, 0), (0, 2), (0, 5), (0, 6), (1, 7), (tag, 16)], d.cycle, numberWord a]
    | .linkWord => [packWord [(st, 0), (1, 2), (0, 5)], d.cycle, 0]
    | .ruleCheck l r =>
      [packWord [(st, 0), (2, 2), (1, 5), (1, 6), (l.val, 8)], d.cycle, numberWord r.val]
    | .curveCheck l c k =>
      [packWord [(st, 0), (3, 2), (1, 5), (1, 6), (l.val, 8)], d.cycle, packWord [(c.val, 0), (k, 8)]]
    | .playlistCheck l e =>
      [packWord [(st, 0), (4, 2), (1, 5), (1, 6), (l.val, 8)], d.cycle, numberWord e]
  match k with
  | .empty => [0, 0, 0]
  | .held d => words 1 d
  | .heldNested d => words 2 d

/-- The five words of the READ_LATCH, CLEAR_LATCH and LATCH_SET payloads. -/
def latchPayload (k : Latch) : List Word :=
  latchWords k.state ++ [numberWord k.softLater, numberWord k.hardLater]

/-! ## State codes of the read replies -/

/-- Lane states by their READ_LANE codes. -/
def laneStateCode : LaneState → Nat
  | .off => 0
  | .primed => 1
  | .running => 2
  | .draining => 3
  | .halted => 4

/-- LINK_STATE by its place in R150 (R190). -/
def linkStateCode : LinkState → Nat
  | .waiting => 0
  | .up => 1
  | .lost => 2

/-- LATCH_STATE by its place in R139 (R190). -/
def latchStateCode : LatchState → Nat
  | .empty => 0
  | .held _ => 1
  | .heldNested _ => 2

/-- Rule states by their place in R86 (R190). -/
def ruleStateCode : RuleState → Nat
  | .vacant => 0
  | .loaded => 1
  | .armed => 2
  | .triggered => 3
  | .active => 4
  | .spent => 5

/-- Block states by their READ_DIRECTORY codes. -/
def blockStateCode : BlockState → Nat
  | .vacant => 0
  | .filling => 1
  | .ready => 2

end Sys2Proof.Machine
end

