-- ==== Sys2Proof/Machine/Ops.lean ====
section
/-! DEFINITION. Machine/Ops.lean: the named operations on the state that every block uses: access to
lanes, rules, blocks and bank groups, time, trace memory, notices, taps, and the hand-over of a word to
a lane port. -/

namespace Sys2Proof.Machine

/-! ## Access -/

/-- Lane `l`. -/
def State.lane (s : State) (l : LaneId) : Lane := s.lanes[l.val]

/-- The state with lane `l` replaced. -/
def State.setLane (s : State) (l : LaneId) (x : Lane) : State :=
  { s with lanes := s.lanes.set l.val x }

/-- The state with lane `l` changed by `f`. -/
def State.modLane (s : State) (l : LaneId) (f : Lane → Lane) : State := s.setLane l (f (s.lane l))

/-- Every lane changed by `f`. -/
@[irreducible] def State.mapLanes (s : State) (f : LaneId → Lane → Lane) : State :=
  { s with lanes := Vector.ofFn fun l => f l (s.lane l) }

/-- Rule `r`. -/
def State.rule (s : State) (r : RuleId) : Rule := s.rules[r.val]

/-- The state with rule `r` replaced. -/
def State.setRule (s : State) (r : RuleId) (x : Rule) : State :=
  { s with rules := s.rules.set r.val x }

/-- The state with rule `r` changed by `f`. -/
def State.modRule (s : State) (r : RuleId) (f : Rule → Rule) : State := s.setRule r (f (s.rule r))

/-- Every rule changed by `f`. -/
@[irreducible] def State.mapRules (s : State) (f : RuleId → Rule → Rule) : State :=
  { s with rules := Vector.ofFn fun r => f r (s.rule r) }

/-- Descriptor `b` of the directory. -/
def State.block (s : State) (b : BlockId) : Block := s.dir.blocks[b.val]

/-- The state with descriptor `b` replaced. -/
def State.setBlock (s : State) (b : BlockId) (x : Block) : State :=
  { s with dir := { s.dir with blocks := s.dir.blocks.set b.val x } }

/-- Bank group `g`. -/
def State.group (s : State) (g : GroupId) : BankGroup := s.tmc.groups[g.val]

/-- The state with bank group `g` replaced. -/
def State.setGroup (s : State) (g : GroupId) (x : BankGroup) : State :=
  { s with tmc := { s.tmc with groups := s.tmc.groups.set g.val x } }

/-- Point `k` of curve `c`. -/
def State.point (s : State) (c : CurveId) (k : PointId) : CurvePoint := (s.curves[c.val])[k.val]

/-- The state with point `k` of curve `c` replaced. -/
def State.setPoint (s : State) (c : CurveId) (k : PointId) (x : CurvePoint) : State :=
  { s with curves := s.curves.set c.val ((s.curves[c.val]).set k.val x) }

/-- The lane numbers, lowest first. -/
def laneNumbers : List LaneId := List.finRange 24

/-- The rule indexes, lowest first. -/
def ruleNumbers : List RuleId := List.finRange 256

/-- The bank groups, lowest first. -/
def groupNumbers : List GroupId := List.finRange 8

/-! ## Time (log 2) -/

/-- Time passes before an event from outside. -/
def State.pass (s : State) (wait : Nat) : State := { s with now := s.now + wait }

/-- Time moves on to an event that was due at `t`; an event taken late finds its time already past. -/
def State.reach (s : State) (t : Nat) : State := { s with now := max s.now t }

/-- An event that the present state does not allow is refused (log 3); otherwise it has its effect. -/
def whenPossible (possible : Bool) (mnemonic : String) (effect : State) :
    Host.Outcome State Fault Refusal :=
  if possible then .next effect else .refused (.notPossible mnemonic)

/-! ## Trace memory (R25, R26; log 6) -/

/-- The word stored at an address, if any has been written since power-on. -/
def lookupCell : List (Nat × Word) → Nat → Option Word
  | [], _ => none
  | (b, w) :: rest, a => if a = b then some w else if a < b then none else lookupCell rest a

/-- The word at an address; an unwritten one is a free value (R26, log 6). -/
def Memory.read (m : Memory) (a : Nat) : Word :=
  match lookupCell m.cells a with
  | some w => w
  | none => Config.uninitialisedWord m.powerOns a

/-- One word put in its place among the cells. -/
def insertCell : List (Nat × Word) → Nat → Word → List (Nat × Word)
  | [], a, w => [(a, w)]
  | (b, v) :: rest, a, w =>
    if a = b then (a, w) :: rest
    else if a < b then (a, w) :: (b, v) :: rest
    else (b, v) :: insertCell rest a w

/-- The memory with one word written. -/
def Memory.write (m : Memory) (a : Nat) (w : Word) : Memory := { m with cells := insertCell m.cells a w }

/-- The memory with words written one after another. -/
def Memory.writeAll (m : Memory) : List (Nat × Word) → Memory
  | [] => m
  | (a, w) :: rest => (m.write a w).writeAll rest

/-- The cells' addresses rise strictly, from an address above `low` when one is given. -/
def cellsRise : Option Nat → List (Nat × Word) → Bool
  | _, [] => true
  | low, (a, _) :: rest =>
    (match low with | none => true | some b => decide (b < a)) && cellsRise (some a) rest

/-- The memory's canonical form. -/
def Memory.wf (m : Memory) : Bool := cellsRise none m.cells

/-! ## Notices and taps (R162, R163) -/

/-- Whether a notice kind is enabled (R178; the enable of kind n is bit n − 1). -/
def noticeEnabled (s : State) (kind : NoticeKind) : Bool := s.ret.mask.getLsbD (kind.code - 1)

/-- R162: a notice offered is discarded uncounted when its kind is disabled, dropped with
NOTICES_DROPPED +1 when the queue holds 16 records, and queued otherwise. -/
def offerNotice (s : State) (kind : NoticeKind) (payload : List Word) : State :=
  if noticeEnabled s kind then
    if s.ret.notices.length < Config.recordPlaces then
      { s with ret := { s.ret with notices := s.ret.notices ++ [⟨kind, payload⟩] } }
    else { s with ret := { s.ret with noticesDropped := countUp s.ret.noticesDropped } }
  else s

/-- R163: a TAP word that finds the tap queue full is dropped with TAPS_DROPPED +1. -/
def offerTap (s : State) (data : Word) : State :=
  if s.ret.taps.length < Config.tapPlaces then
    { s with ret := { s.ret with taps := s.ret.taps ++ [data] } }
  else { s with ret := { s.ret with tapsDropped := countUp s.ret.tapsDropped } }

/-- The reasons of a LANE_ENDED notice (R9, R10), in the order of R162. -/
inductive EndReason where
  | ended | drained | halted
  deriving DecidableEq, Repr

/-- The code of a LANE_ENDED reason (R190). -/
def EndReason.code : EndReason → Nat
  | .ended => 0
  | .drained => 1
  | .halted => 2

/-- The LANE_ENDED notice of a lane (R162; 10, Reply and notice payloads). -/
def offerLaneEnded (s : State) (l : LaneId) (reason : EndReason) : State :=
  offerNotice s .laneEnded
    [ packWord [(l.val, 0), (reason.code, 8)], s.link.currentCycle,
      numberWord (s.lane l).counters.ticks ]

/-! ## Lane states -/

/-- PRIMED, RUNNING and DRAINING. -/
def LaneState.inPlay : LaneState → Bool
  | .off => false
  | .primed => true
  | .running => true
  | .draining => true
  | .halted => false

/-- A lane takes ticks in RUNNING, in DRAINING, and in HALTED when FALLBACK is LIVE (01, Lane states). -/
def Lane.takesTicks (x : Lane) : Bool :=
  match x.state with
  | .off => false
  | .primed => false
  | .running => true
  | .draining => true
  | .halted => x.config.fallback = .live

/-- R22: the hold word. -/
def Lane.holdWord (x : Lane) : OutCode := if x.sentSinceStart then x.lastWord else x.config.restWord

/-! ## Lane ports (R183 to R187) -/

/-- The lowest `n` bits of a number, the most significant first. -/
def bitsMsbFirst (n v : Nat) : List Bool := (List.range n).map fun i => v.testBit (n - 1 - i)

/-- The number whose bits are given, the most significant first. -/
def bitsValue (bits : List Bool) : Nat := bits.foldl (fun acc b => 2 * acc + flagBit b) 0

/-- R185: the order of a word: the lane's BIT_ORDER, or its opposite when the word's SWAP is set. -/
def effectiveOrder (order : BitOrder) (swap : Bool) : BitOrder :=
  if swap then (match order with | .msbFirst => .lsbFirst | .lsbFirst => .msbFirst) else order

/-- R185: the L bits of a lane word in the order they are shifted. -/
def wordBits (len : WordLength) (order : BitOrder) (w : OutCode) : List Bool :=
  match order with
  | .msbFirst => bitsMsbFirst len.bits w.toNat
  | .lsbFirst => (bitsMsbFirst len.bits w.toNat).reverse

/-- The first `n` bytes of a bit string. -/
def bytesOf : Nat → List Bool → List Nat
  | 0, _ => []
  | n + 1, bits => bitsValue (bits.take 8) :: bytesOf n (bits.drop 8)

/-- R133, R187: the sequence count a frame carries. -/
def sequenceCarried (count : BitVec 4) (mode : SequenceMode) : BitVec 4 :=
  match mode with
  | .normal => count + 1
  | .hold => count
  | .jump k => count + BitVec.ofNat 4 (k + 1)

/-- R186: the bytes of a frame before CHECK: SEQ, WORD in its effective order, PAD. -/
def frameBody (len : WordLength) (order : BitOrder) (seq : BitVec 4) (w : OutCode) : List Bool :=
  let head := bitsMsbFirst 4 seq.toNat ++ wordBits len order w
  head ++ List.replicate ((8 - head.length % 8) % 8) false

/-- R132, R186: a whole frame; CHECK_BAD sends the complement of the correct check byte. -/
def frameBits (len : WordLength) (order : BitOrder) (seq : BitVec 4) (w : OutCode) (bad : Bool) :
    List Bool :=
  let body := frameBody len order seq w
  let check := checkByte (bytesOf (body.length / 8) body)
  body ++ bitsMsbFirst 8 (if bad then 255 - check else check)

/-- R184: the move of a word into TRANSFER at time `now`: the port reads the lane's settings, builds the
bit string and fixes the bit period; a frame updates SEQ_COUNT. -/
def moveToTransfer (now : Nat) (c : LaneConfig) (p : Port) (w : PortWord) : Port :=
  let order := effectiveOrder c.bitOrder w.swap
  let period := bitPeriodOf c.portDivider
  let strobe := now + wordTime c.portKind c.wordLength c.portDivider
  match c.portKind with
  | .level =>
    { p with transfer := some ⟨wordBits c.wordLength order w.word, period, w.line, strobe⟩ }
  | .frame =>
    let seq := sequenceCarried p.seqCount w.sequence
    { p with
      transfer := some ⟨frameBits c.wordLength order seq w.word w.checkBad, period, w.line, strobe⟩
      seqCount := seq }

/-- What a lane hands to its port, with what its TAP word reports (R114, R163). -/
structure HandOver where
  word : PortWord
  held : Bool
  faulted : Bool
  deriving DecidableEq, Repr

/-- A hand-over of a word that runs no rule stage: line state NORMAL and every flag clear (R114). -/
def plainHandOver (w : OutCode) (held : Bool) : HandOver :=
  ⟨⟨w, .normal, false, false, .normal⟩, held, false⟩

/-- R21, R22: a lane with a word handed to its port: into transfer if the port is idle, else into the
pending place, PORT_SUPERSEDED +1 if that was occupied; the word becomes the last-sent word. -/
def Lane.handed (now : Nat) (x : Lane) (w : PortWord) : Lane :=
  let x := { x with lastWord := w.word, lastLine := w.line, sentSinceStart := true }
  match x.port.transfer, x.port.pending with
  | none, _ => { x with port := moveToTransfer now x.config x.port w }
  | some _, none => { x with port := { x.port with pending := some w } }
  | some _, some _ =>
    { x with
      port := { x.port with pending := some w }
      counters := { x.counters with portSuperseded := countUp x.counters.portSuperseded } }

/-- R16 step 7, R163: the hand-over of a lane, and the TAP word of a tapped lane. -/
def handOver (s : State) (l : LaneId) (h : HandOver) : State :=
  let s := s.modLane l fun x => x.handed s.now h.word
  if s.ret.tapLanes.contains l then
    offerTap s (tapWord l h.word.line h.held h.faulted h.word.word)
  else s

end Sys2Proof.Machine
end

