-- ==== Sys2Proof/Machine/RuleTable.lean ====
section
/-! DEFINITION. Machine/RuleTable.lean: the events of the Rule Table that need no lane tick: triggers
taken, ON_RULE deliveries, ends of delays and durations, the returns of a stopped lane's rules, and the
Rule Table's taking of a cycle mark. -/

namespace Sys2Proof.Machine

/-! ## Triggers (R93 to R98) -/

/-- Whether the lane with this number exists and is in PRIMED, RUNNING or DRAINING. -/
def laneInPlay (s : State) (n : Nat) : Bool :=
  match toFin? n 24 with
  | some l => (s.lane l).state.inPlay
  | none => false

/-- R93: a trigger taken: TRIGGERED, DELAY_COUNT loaded with DELAY. `baseNow` says that this tick is
already the base tick. With DELAY 0 the attempt is due at the base tick. -/
def Rule.trigger (baseNow : Bool) (r : Rule) : Rule :=
  { r with
    state := .triggered
    delayCount := r.fields.delay
    baseSeen := baseNow
    attemptDue := r.fields.delay = 0
    late := false }

/-- R93: the rule can take a trigger: it is ARMED and its target lane is in play. -/
def canTake (s : State) (r : Rule) : Bool := r.state = .armed && laneInPlay s r.fields.lane

/-- R94: an ARMED IMMEDIATE rule is triggered at once while its target lane is in play; its base tick is
the next tick of the lane. -/
def judgeImmediate (s : State) (r : Rule) : Rule :=
  if canTake s r && r.fields.trigger = .immediate then r.trigger false else r

/-- Every rule that matches takes a trigger. `inStep2 = some l` when the event happens within step 2 of a
tick of lane l, which then is the base tick of that lane's rules (R93). -/
def offerTrigger (s : State) (inStep2 : Option LaneId) (hits : Rule → Bool) : State :=
  s.mapRules fun _ r =>
    if canTake s r && hits r then
      r.trigger (match inStep2 with | some l => r.fields.lane = l.val | none => false)
    else r

/-- R97: whether a rule waits for this signal of rule `i`. -/
def waitsFor (i : RuleId) (sig : RuleSignal) (r : Rule) : Bool :=
  match r.fields.trigger with
  | .onRule j w => j = i && w = sig
  | _ => false

/-- R97: an ON_RULE delivery. -/
def deliverOnRule (s : State) (i : RuleId) (sig : RuleSignal) (inStep2 : Option LaneId) : State :=
  offerTrigger s inStep2 (waitsFor i sig)

/-! ## Reports (R111) -/

/-- The events of a RULE_EVENT notice, in the order of R111. -/
inductive RuleEvent where
  | active | ended | missed
  deriving DecidableEq, Repr

/-- The code of a RULE_EVENT event (R190). -/
def RuleEvent.code : RuleEvent → Nat
  | .active => 0
  | .ended => 1
  | .missed => 2

/-- R111: the TICKS counter of a rule's target lane; 0 where a disturbance has left a LANE above 23, which is
no lane (DESIGN CHOICE, log 47). -/
def targetTicks (s : State) (r : Rule) : Nat :=
  match toFin? r.fields.lane 24 with
  | some l => (s.lane l).counters.ticks
  | none => 0

/-- R111: the RULE_EVENT notice of rule `i`, offered if NOTIFY is yes. -/
def offerRuleEvent (s : State) (i : RuleId) (ev : RuleEvent) : State :=
  let r := s.rule i
  if r.fields.notify then
    offerNotice s .ruleEvent
      [ packWord [(i.val, 0), (ev.code, 8), (r.fields.lane, 12)], s.link.currentCycle,
        numberWord (targetTicks s r),
        match ev with
        | .active => 0
        | .ended => numberWord r.activations
        | .missed => numberWord r.missed ]
  else s

/-! ## The active chain (R102, R104) -/

/-- R102: the place of a new rule: after every rule of equal or lower PRIORITY, before every higher. -/
def chainInsert (priority : RuleId → Nat) (i : RuleId) : List RuleId → List RuleId
  | [] => [i]
  | j :: rest => if priority j ≤ priority i then j :: chainInsert priority i rest else i :: j :: rest

/-- A rule leaves every chain that holds it; the rules after it keep their order (R104). -/
def leaveChains (s : State) (i : RuleId) : State :=
  s.mapLanes fun _ x => if x.chain.contains i then { x with chain := x.chain.erase i } else x

/-! ## Ends of delays and durations (R99, R105; log 9) -/

/-- R87, R91: REMAINING as ARM loads it. -/
def remainingOf (repeats : Nat) : Remaining := if repeats = 0 then .unlimited else .count repeats

/-- R105, 2: REMAINING lowered by 1 unless UNLIMITED. -/
def Remaining.lower : Remaining → Remaining
  | .unlimited => .unlimited
  | .count n => .count (n - 1)

/-- R99: a rule whose DELAY_COUNT has run out: its attempt falls due. -/
def Rule.delayEnds (r : Rule) : Bool := r.state = .triggered && r.delayCount = 0 && !r.attemptDue

/-- The row RULE_DELAY_END on one rule. -/
def endDelay (r : Rule) : Rule := { r with attemptDue := true }

/-- R105, 1 to 3: the rule at the end of its activation. -/
def Rule.ended (r : Rule) : Rule :=
  let left := r.remaining.lower
  { r with
    activations := countUp r.activations
    remaining := left
    state := if left = .count 0 then .spent else .armed
    durationCount := 0
    endDue := false }

/-- R105: the end of an activation by its duration: the rule leaves the chain, is counted, offers its
notice and its ON_RULE delivery, and an IMMEDIATE rule is triggered again at once (R94). -/
def endActivation (s : State) (i : RuleId) : State :=
  let s := leaveChains s i
  let s := s.modRule i Rule.ended
  let s := offerRuleEvent s i .ended
  let s := deliverOnRule s i .ended none
  s.modRule i (judgeImmediate s)

/-- The rules whose activation ends now: lane by lane, in chain order (log 21). -/
def endsDue (s : State) : List RuleId :=
  laneNumbers.flatMap fun l => (s.lane l).chain.filter fun i => (s.rule i).endDue

/-- Whether a delay or a duration has run out and its event has not been taken. -/
def unsettled (s : State) : Bool := s.rules.toList.any fun r => r.endDue || r.delayEnds

/-- The ends of delays and durations that have fallen due are taken before any other event that could
tell (R99, R105: they fall at step 3 of the tick or at the mark itself; log 9). -/
def settle (s : State) : State :=
  if unsettled s then
    let s := s.mapRules fun _ r => if r.delayEnds then endDelay r else r
    (endsDue s).foldl endActivation s
  else s

/-- R126: the ends that have fallen due before a tick, but for the ends of CYCLES-unit activations named,
which are taken within it. -/
def settleBut (held : List RuleId) (s : State) : State :=
  if unsettled s then
    let s := s.mapRules fun _ r => if r.delayEnds then endDelay r else r
    ((endsDue s).filter fun i => !(held.contains i && (s.rule i).fields.unit = .cycles)).foldl
      endActivation s
  else s

/-! ## Lane stops (R109) -/

/-- R109: a rule returned to ARMED because its target lane left play. -/
def Rule.returned (r : Rule) : Rule :=
  { r with
    state := .armed
    delayCount := 0
    durationCount := 0
    ramp := 0
    baseSeen := false
    attemptDue := false
    endDue := false }

/-- R109: whether a rule returns to ARMED when lane `l` leaves play: it is TRIGGERED or ACTIVE and targets
the lane, or stands in the lane's chain. -/
def returns (s : State) (l : LaneId) (i : RuleId) : Bool :=
  let r := s.rule i
  (r.fields.lane = l.val && (r.state = .triggered || r.state = .active)) || (s.lane l).chain.contains i

/-- R109: every rule that returns to ARMED leaves the chain it stands in, and the lane's chain becomes
empty. A rule whose LANE a disturbance has changed may stand in another lane's chain. -/
def returnRules (s : State) (l : LaneId) : State :=
  let t := s.mapLanes fun k x =>
    { x with chain := if k = l then [] else x.chain.filter fun i => !returns s l i }
  t.mapRules fun i r => if returns s l i then r.returned else r

/-! ## The Rule Table's taking of a cycle mark (R95, R99, R100) -/

/-- R99, R100: what a mark does to a rule that counts in CYCLES. -/
def Rule.countMark (r : Rule) : Rule :=
  if r.fields.unit = .cycles then
    if r.state = .triggered && 0 < r.delayCount then { r with delayCount := r.delayCount - 1 }
    else if r.state = .active && 0 < r.durationCount then
      { r with durationCount := r.durationCount - 1, endDue := r.durationCount = 1 }
    else r
  else r

/-- R95: whether a mark's number reaches the rule's AT_CYCLE number. -/
def atCycleReached (number : Word) (r : Rule) : Bool :=
  match r.fields.trigger with
  | .atCycle n => cycleReached number n
  | _ => false

/-- R95: whether a mark of this number triggers the rule: it reaches the rule's AT_CYCLE number, or the rule
was armed when that number was already reached, and then any mark does (log 46). -/
def Rule.markTriggers (number : Word) (r : Rule) : Bool :=
  match r.fields.trigger with
  | .atCycle n => r.late || cycleReached number n
  | _ => false

/-- The Rule Table takes a mark: CYCLES delays and durations count it, and the ARMED AT_CYCLE rules that it
triggers, in a lane in play, are TRIGGERED; the triggering mark is not counted. A rule that a CYCLE lane's tick at this
mark has just triggered or activated counts the mark when the Rule Table takes it after the lane (log 39).
Ends that it brings are taken after it (log 9, log 38). -/
def ruleTableMark (s : State) (number : Word) : State :=
  let s := settle s
  s.mapRules fun _ r =>
    if canTake s r && r.markTriggers number then r.trigger false else r.countMark

end Sys2Proof.Machine
end

