-- ==== Sys2Proof/Machine/Replay.lean ====
section
/-! DEFINITION. Machine/Replay.lean: the Replay Engine: the walk of a playlist, positions, the fetch a
lane issues next, the play of the queue, patch truncation, drain and release (03, R45 to R67). -/

namespace Sys2Proof.Machine

/-! ## The walk of a playlist (R47, R48) -/

/-- R47: the start row of a pass. -/
def startRow (e : PlaylistEntry) : Nat :=
  match e.direction with
  | .forward => e.firstRow
  | .reverse => e.lastRow

/-- R47: whether a row is the last of its pass: the next one would pass the far end. -/
def lastOfPass (e : PlaylistEntry) (row : Nat) : Bool :=
  match e.direction with
  | .forward => e.lastRow < row + e.step
  | .reverse => row < e.firstRow + e.step

/-- R47: the row STEP further on. -/
def nextRow (e : PlaylistEntry) (row : Nat) : Nat :=
  match e.direction with
  | .forward => row + e.step
  | .reverse => row - e.step

/-- R47: whether a pass is the final one; an entry with PASSES 0 has none. -/
def finalPass (e : PlaylistEntry) (pass : Nat) : Bool := e.passes != 0 && pass = e.passes

/-- R47: the number of the pass after one that is not final; an endless entry goes on from 1 after
65,535. -/
def nextPass (e : PlaylistEntry) (pass : Nat) : Nat :=
  if e.passes = 0 && pass = 65535 then 1 else pass + 1

/-- The first position of a visit of entry `k`: its start row, pass 1. -/
def visitStart (pl : List StoredEntry) (k : Nat) : Option Position :=
  match pl[k]? with
  | some e => some ⟨k, 1, startRow e.entry⟩
  | none => none

/-- R48: what follows the entry-final word of entry `k`; none where no word follows. -/
def afterEntry (pl : List StoredEntry) (k : Nat) (e : PlaylistEntry) : Option Position :=
  match e.ending with
  | .next => visitStart pl (k + 1)
  | .loop j => visitStart pl j
  | .stop => none

/-- R47, R48: the position that follows the word at `p` of entry `e`. -/
def following (pl : List StoredEntry) (e : PlaylistEntry) (p : Position) : Option Position :=
  if lastOfPass e p.row then
    if finalPass e p.pass then afterEntry pl p.entry e
    else some ⟨p.entry, nextPass e p.pass, startRow e⟩
  else some { p with row := nextRow e p.row }

/-- R47: the address of a row. -/
def wordAddress (b : Block) (e : PlaylistEntry) (row : Nat) : Nat := b.base + row * b.columns + e.column

/-! ## Counts of the queue (R49, R50) -/

/-- R49: the fill. -/
def Lane.fill (x : Lane) : Nat := x.queue.length

/-- R49, R55: the reserved places. -/
def Lane.reserved (x : Lane) : Nat :=
  match x.fetch with
  | some f => f.words.length
  | none => 0

/-- R49: the free places. -/
def Lane.freePlaces (x : Lane) : Nat := Config.replayPlaces - x.fill - x.reserved

/-- The words of a fetch in flight that is not voided. -/
def Lane.liveFetchWords (x : Lane) : List FetchWord :=
  match x.fetch with
  | some f => if f.voided then [] else f.words
  | none => []

/-- R50: the entry lead. -/
def Lane.entryLead (x : Lane) : Nat :=
  (x.queue.filter fun q => q.place.entryFinal).length +
    (x.liveFetchWords.filter fun w => w.entryFinal).length

/-- R50: the play position: the queue head's, else the first of a fetch not voided, else the fetch
position. -/
def Lane.playPos (x : Lane) : Option Position :=
  match x.queue, x.liveFetchWords with
  | q :: _, _ => some q.place.position
  | [], w :: _ => some w.position
  | [], [] =>
    match x.fetchPos with
    | .at p => some p
    | .ended => none
    | .none => none

/-! ## The next fetch (R52 to R55) -/

/-- R53: the words of the next fetch: along the current pass, within the aligned group of 16 words of
the first. At most 16 words lie in it. -/
def yieldWords (b : Block) (e : PlaylistEntry) (group : Nat) : Nat → Position → List FetchWord
  | 0, _ => []
  | fuel + 1, p =>
    let a := wordAddress b e p.row
    if a / 16 = group then
      if lastOfPass e p.row then [⟨a, p, true, finalPass e p.pass⟩]
      else ⟨a, p, false, false⟩ :: yieldWords b e group fuel { p with row := nextRow e p.row }
    else []

/-- R53: the yield from a position. -/
def nextYield (b : Block) (e : PlaylistEntry) (p : Position) : List FetchWord :=
  yieldWords b e (wordAddress b e p.row / 16) 16 p

/-- R52: an entry passes its check: its code agrees, and its column and rows lie in its block. -/
def entryPasses (s : State) (e : StoredEntry) : Bool :=
  let b := s.block e.entry.block
  e.codeOk && decide (e.entry.column < b.columns) && decide (e.entry.lastRow < b.rows)

/-- R54: the conditions of a fetch that do not depend on the entry: the lane is in play, has no fetch in
flight and a fetch position, its entry lead is below 2, and a place is free (log 24). -/
def Lane.fetchWanted (x : Lane) : Option Position :=
  if x.state.inPlay && x.fetch.isNone && decide (x.entryLead < 2) && decide (0 < x.freePlaces) then
    match x.fetchPos with
    | .at p => some p
    | .ended => none
    | .none => none
  else none

/-- R55, R65: the fetch position after a fetch: the position that follows its last word, or ENDED where
none follows or a DRAINING lane has taken the last word of its pass. -/
def advancedPos (x : Lane) (e : PlaylistEntry) (last : FetchWord) : FetchPosition :=
  if last.endOfPass && x.state = .draining then .ended
  else
    match following x.playlist e last.position with
    | some p => .at p
    | none => .ended

/-- The address of a fetch position, by its own entry's block (R55, CLOSE-AFTER). -/
def positionAddress (s : State) (x : Lane) (p : FetchPosition) : Option Nat :=
  match p with
  | .at q =>
    match x.playlist[q.entry]? with
    | some e => some (wordAddress (s.block e.entry.block) e.entry q.row)
    | none => none
  | .ended => none
  | .none => none

/-- R55: CLOSE-AFTER is set when the advanced fetch position is not ENDED and lies in another memory row
than the fetch, by the memory row number of R25. -/
def closeAfterFor (s : State) (x : Lane) (p : FetchPosition) (address : Nat) : Bool :=
  match positionAddress s x p with
  | some a => a / 8192 != address / 8192
  | none => false

/-! ## Playing the queue (R58 to R62) -/

/-- R62: how many head words are discarded to pay the debt: while it is above 0 and at least 2 words
remain. -/
def discards (x : Lane) : Nat := min x.debt (x.fill - 1)

/-- R62: the lane after the discards of a tick that takes a word. -/
def Lane.payDebt (x : Lane) : Lane :=
  { x with queue := x.queue.drop (discards x), debt := x.debt - discards x }

/-- R60 to R62: an underrun: counted, and with KEEP_PACE added to the debt. -/
def Lane.underrun (x : Lane) : Lane :=
  { x with
    counters := { x.counters with underruns := countUp x.counters.underruns }
    debt := match x.config.underrun with
      | .slip => x.debt
      | .keepPace => min (x.debt + 1) Config.debtMax }

/-- R48, R58: whether a word is the playlist's last word (log 37). -/
def lastWordOfPlaylist (x : Lane) (w : FetchWord) : Bool :=
  w.entryFinal &&
    match x.playlist[w.position.entry]? with
    | some e => (afterEntry x.playlist w.position.entry e.entry).isNone
    | none => true

/-! ## Voiding, truncation, drain, release (R57, R63, R65, R66) -/

/-- R57: the lane's fetch in flight voided. -/
def Lane.voidFetch (x : Lane) : Lane :=
  { x with fetch := x.fetch.map fun f => { f with voided := true } }

/-- R63: patch truncation of one lane for the addresses a write changed. -/
def Lane.truncate (x : Lane) (written : List Nat) : Lane :=
  let kept := x.queue.takeWhile fun q => !written.contains q.place.address
  match x.queue.drop kept.length with
  | q :: _ => { x.voidFetch with queue := kept, fetchPos := .at q.place.position }
  | [] =>
    match x.liveFetchWords with
    | w :: rest =>
      if (w :: rest).any fun v => written.contains v.address then
        { x.voidFetch with fetchPos := .at w.position }
      else x
    | [] => x

/-- R63: patch truncation of every lane in PRIMED, RUNNING or DRAINING whose playlist names the block. -/
def patchTruncate (s : State) (b : BlockId) (written : List Nat) : State :=
  s.mapLanes fun _ x =>
    if x.state.inPlay && x.playlist.any fun e => e.entry.block = b then x.truncate written else x

/-- The words of a queue up to its first END_OF_PASS word, if it holds one (R65, 1). -/
def throughEndOfPass : List QueueWord → Option (List QueueWord)
  | [] => none
  | q :: rest =>
    if q.place.endOfPass then some [q]
    else match throughEndOfPass rest with
      | some l => some (q :: l)
      | none => none

/-- R65: the replay state at DRAIN. -/
def Lane.drain (x : Lane) : Lane :=
  match throughEndOfPass x.queue with
  | some kept => { x.voidFetch with queue := kept, fetchPos := .ended, state := .draining }
  | none =>
    if x.liveFetchWords.any fun w => w.endOfPass then { x with fetchPos := .ended, state := .draining }
    else { x with state := .draining }

/-- R66: the replay state of a lane that goes OFF or HALTED. -/
def Lane.releaseReplay (x : Lane) : Lane :=
  { x.voidFetch with queue := [], fetchPos := .none, debt := 0 }

/-- R50, R51: the replay state of a lane at its start. -/
def Lane.startReplay (x : Lane) : Lane :=
  { x with
    debt := 0
    fetchPos := match visitStart x.playlist 0 with
      | some p => if x.config.source = .replay then .at p else .none
      | none => .none }

end Sys2Proof.Machine
end

