-- ==== Sys2Proof/Machine/FaultLatch.lean ====
section
/-! DEFINITION. Machine/FaultLatch.lean: lanes leaving play, halts, and the reports that the Fault Latch
takes (R10, R38, R109, R135 to R144). -/

namespace Sys2Proof.Machine

/-! ## Lanes leaving play -/

/-- R38: one taken from, or added to, the IN_USE of blocks. -/
def addUse (s : State) (blocks : List BlockId) : State :=
  blocks.foldl (fun s b => s.setBlock b { s.block b with inUse := (s.block b).inUse + 1 }) s

/-- R38: one taken from the IN_USE of the blocks a lane counted on. -/
def dropUse (s : State) (blocks : List BlockId) : State :=
  blocks.foldl (fun s b => s.setBlock b { s.block b with inUse := (s.block b).inUse - 1 }) s

/-- What every lane that leaves PRIMED, RUNNING or DRAINING gives up: its rules return to ARMED (R109),
its replay state is released (R66), and it counts on no block (R38). -/
def releaseLane (s : State) (l : LaneId) : State :=
  let s := returnRules s l
  let s := dropUse s (s.lane l).counted
  s.modLane l fun x => { x.releaseReplay with counted := [] }

/-- R7, R9: a lane in play goes OFF; its tick timer stops (R14, R15). -/
def laneOff (s : State) (l : LaneId) : State :=
  (releaseLane s l).modLane l fun x => { x with state := .off, pacing := .stopped }

/-- R10: the fallback word of a halt. -/
def Lane.haltWord (x : Lane) : OutCode :=
  match x.config.fallback with
  | .hold => x.holdWord
  | .rest => x.config.restWord
  | .live => x.holdWord

/-- R10, R14, R15: a lane in play halts: it releases its state, enters HALTED (with FALLBACK LIVE it
keeps its timing), offers LANE_ENDED HALTED and hands its fallback word once. Another lane is left as it
is. -/
def haltLane (s : State) (l : LaneId) : State :=
  if (s.lane l).state.inPlay then
    let s := releaseLane s l
    let s := s.modLane l fun x =>
      { x with state := .halted, pacing := if x.config.fallback = .live then x.pacing else .stopped }
    let s := offerLaneEnded s l .halted
    handOver s l (plainHandOver (s.lane l).haltWord true)
  else s

/-- R141: every lane in play halts, in lane-number order. Each halt offers its notice and then hands its
word, so the TAP words stand in lane-number order too (log 41). -/
def haltAll (s : State) : State := laneNumbers.foldl haltLane s

/-! ## Reports (R135, R136, R140) -/

/-- The lane that a HARD error orders to halt (R135, R138); none for a SOFT error. -/
def ErrorDetail.hardLane : ErrorDetail → Option LaneId
  | .traceReplay _ _ => none
  | .traceRead _ _ => none
  | .linkWord => none
  | .ruleCheck l _ => some l
  | .curveCheck l _ _ => some l
  | .playlistCheck l _ => some l

/-- The class of a held descriptor (R135). -/
def Descriptor.isHard (d : Descriptor) : Bool := d.detail.hardLane.isSome

/-- R144: the LATCH_SET notice, with the latch as it stands after the move. -/
def offerLatchSet (s : State) : State := offerNotice s .latchSet (latchPayload s.latch)

/-- R140: a descriptor placed in the latch. -/
def holdDescriptor (s : State) (d : Descriptor) (softLater : Nat) : State :=
  offerLatchSet { s with latch := { s.latch with state := .held d, softLater := softLater } }

/-- R140: SOFT_LATER +1. -/
def countSoft (s : State) : State :=
  { s with latch := { s.latch with softLater := countUp s.latch.softLater } }

/-- R140: HARD_LATER +1, with the latch state after it. -/
def countHard (s : State) (k : LatchState) : State :=
  { s with latch := { s.latch with state := k, hardLater := countUp s.latch.hardLater } }

/-- R140: the latch's own move at a report. -/
def latchTakes (s : State) (d : Descriptor) : State :=
  match s.latch.state with
  | .empty => holdDescriptor s d s.latch.softLater
  | .held h =>
    if d.isHard then
      if h.isHard then countHard s (.heldNested h)
      else holdDescriptor s d (countUp s.latch.softLater)
    else countSoft s
  | .heldNested h => if d.isHard then countHard s (.heldNested h) else countSoft s

/-- R140, R141: whether a report moves the latch from HELD to HELD_NESTED. -/
def nests (k : LatchState) (d : Descriptor) : Bool :=
  match k with
  | .empty => false
  | .held h => h.isHard && d.isHard
  | .heldNested _ => false

/-- R138, R140, R141: a report taken: the latch's move, then the halt orders of a HARD report: every lane
in play at the move to HELD_NESTED, otherwise the lane it names. -/
def takeReport (s : State) (d : Descriptor) : State :=
  let nesting := nests s.latch.state d
  let s := latchTakes s d
  if nesting then haltAll s
  else match d.detail.hardLane with
    | some l => haltLane s l
    | none => s

/-- R136: the descriptor of an error found in this state. -/
def descriptorOf (s : State) (e : ErrorDetail) : Descriptor := ⟨e, s.link.currentCycle⟩

/-- R135, R136: a report made at once. -/
def report (s : State) (e : ErrorDetail) : State := takeReport s (descriptorOf s e)

end Sys2Proof.Machine
end

