-- ==== Sys2Proof/Machine/Conversion.lean ====
section
/-! DEFINITION. Machine/Conversion.lean: the arithmetic of the conversion path and of every action (04,
R68 to R85; 06, R114 to R134), as functions of plain values. -/

namespace Sys2Proof.Machine

/-! ## The value stage (R71, R117 to R121) -/

/-- What a VALUE action leaves: the code, whether a sat() changed its argument (R72), and the rule's
generator and accumulator. -/
structure ValueResult where
  e : Int
  clamped : Bool
  noise : BitVec 23
  ramp : Int
  deriving DecidableEq, Repr

/-- A result through sat() (R71, R72). -/
def satResult (x : Int) (noise : BitVec 23) (ramp : Int) : ValueResult := ⟨sat x, sat x != x, noise, ramp⟩

/-- R118: the product rounded to the nearest multiple of 4,096, an exact half away from zero. -/
def gainQuotient (q : Int) : Int :=
  if 0 ≤ q then (q + 2048) / 4096 else -((-q + 2048) / 4096)

/-- R119, 1: one step of a noise generator (feedback polynomial x²³ + x¹⁸ + 1). -/
def noiseStep (n : BitVec 23) : BitVec 23 :=
  BitVec.ofNat 23 (2 * n.toNat + flagBit (n.getLsbD 22 != n.getLsbD 17))

/-- R119, 2: the offset of a noise state. -/
def noiseOffset (a : Nat) (n : BitVec 23) : Int := ((n.toNat * (2 * a + 1) / 8388608 : Nat) : Int) - a

/-- R120, 1: the ramp accumulator after a step, clamped to ±limit. -/
def rampStep (ramp s : Int) (limit : Nat) : Int := max (-(limit : Int)) (min (ramp + s) limit)

/-- R117 to R121: a VALUE action on an engineering code, with the rule's generator and accumulator. An
action of another class leaves the code as it stands. -/
def valueAction (a : Action) (e : Int) (noise : BitVec 23) (ramp : Int) : ValueResult :=
  match a with
  | .stuck v => ⟨v, false, noise, ramp⟩
  | .offset d => satResult (e + d) noise ramp
  | .gain g d => satResult (gainQuotient (e * g) + d) noise ramp
  | .noise amp _ => satResult (e + noiseOffset amp (noiseStep noise)) (noiseStep noise) ramp
  | .ramp s limit => satResult (e + rampStep ramp s limit) noise (rampStep ramp s limit)
  | .clamp lo hi => ⟨min (max e lo) hi, false, noise, ramp⟩
  | .invert => satResult (-e) noise ramp
  | _ => ⟨e, false, noise, ramp⟩

/-! ## The curve stage (R74 to R77) -/

/-- R74: the offset code. -/
def offsetCode (e : Int) : Nat := (e + 8388608).toNat

/-- R74: the output code of CURVE NONE. -/
def plainCode (e : Int) : OutCode := BitVec.ofNat 20 (offsetCode e / 16)

/-- R75: the interpolation between the two points of a segment at a fraction. -/
def interpolate (low high : OutCode) (f : Nat) : OutCode :=
  let d : Int := (high.toNat : Int) - low.toNat
  BitVec.ofInt 20 ((low.toNat : Int) + (d * f + 131072) / 262144)

/-- R75: the segment of an engineering code, 0 to 63. -/
def segmentOf (e : Int) : Fin 64 := Fin.ofNat 64 (offsetCode e / 262144)

/-- R75: the fraction of an engineering code. -/
def fractionOf (e : Int) : Nat := offsetCode e % 262144

/-- What the curve stage gives: an output code, or the point that fails its check (R77). -/
inductive CurveResult where
  | code (o : OutCode)
  | fails (c : CurveId) (point : Nat)
  deriving DecidableEq, Repr

/-- R74 to R77: the curve stage of a lane with this CURVE, its two points read one after the other: P[k] as
it stands in `s`, then P[k + 1] as it stands in `later` (R79). When both points fail, the lower is
named. -/
def curveStageOver (s later : State) (curve : Option CurveId) (e : Int) : CurveResult :=
  match curve with
  | none => .code (plainCode e)
  | some c =>
    let k := segmentOf e
    let low := s.point c k.castSucc
    let high := later.point c k.succ
    if low.codeOk then
      if high.codeOk then .code (interpolate low.value high.value (fractionOf e))
      else .fails c (k.val + 1)
    else .fails c k.val

/-- The curve stage of a tick that no replacement of a point falls in. -/
def curveStage (s : State) (curve : Option CurveId) (e : Int) : CurveResult := curveStageOver s s curve e

/-! ## The code stage, the format stage (R80 to R82, R122, R123) -/

/-- R122: a CODE action on an output code. ORDER_SWAP, like an action of another class, leaves it. -/
def codeAction (a : Action) (o : OutCode) : OutCode :=
  match a with
  | .force andMask orMask => (o &&& andMask) ||| orMask
  | .flip m => o ^^^ m
  | .codeStuck c => c
  | _ => o

/-- R82: the output code cut to the word length: W = ⌊O / 2^(20 − L)⌋. -/
def formatWord (len : WordLength) (o : OutCode) : OutCode := o >>> (20 - len.bits)

/-- R23: a push into the history. -/
def pushHistory (h : List OutCode) (w : OutCode) : List OutCode := (w :: h).take Config.historyPlaces

/-! ## The time, line and frame stages (R124 to R131) -/

/-- R125, R126, R128: the word that a TIME action hands, the history as it stood before this tick's
push; the word that a full history's push removed stands at place 64. -/
def timeWord (a : Action) (hold rest w : OutCode) (before : List OutCode) : OutCode :=
  match a with
  | .drop => hold
  | .freeze => hold
  | .delay n => ((w :: before)[n]?).getD rest
  | _ => w

/-- R131: SEQUENCE after a FRAME action. -/
def sequenceAfter (a : Action) (m : SequenceMode) : SequenceMode :=
  match a with
  | .seqHold => .hold
  | .seqJump k => .jump k
  | _ => m

/-- R129: the line state after a LINE action. -/
def lineAfter (a : Action) (st : LineState) : LineState :=
  match a with
  | .line l => l
  | _ => st

/-! ## The gate generator (R106, R107) -/

/-- R106: one step of a gate generator. -/
def gateStep (g : BitVec 16) : BitVec 16 :=
  BitVec.ofNat 16
    (2 * g.toNat +
      flagBit ((g.getLsbD 15 != g.getLsbD 13) != (g.getLsbD 12 != g.getLsbD 10)))

/-- R106: the value drawn from a state after its step. -/
def gateValue (g : BitVec 16) : Nat := g.toNat / 256

/-- R107: the gates of a chain in chain order, and the generator after the draws; only rules with
INTERMITTENCY above 0 draw. -/
def drawGates (level : RuleId → Nat) : List RuleId → BitVec 16 → List (RuleId × Bool) × BitVec 16
  | [], g => ([], g)
  | i :: rest, g =>
    if level i = 0 then
      let d := drawGates level rest g
      ((i, true) :: d.1, d.2)
    else
      let g := gateStep g
      let d := drawGates level rest g
      ((i, decide (level i ≤ gateValue g)) :: d.1, d.2)

end Sys2Proof.Machine
end

