-- ==== Sys2Proof/Machine/Tick.lean ====
section
/-! DEFINITION. Machine/Tick.lean: one tick of one lane, step by step (R16), in RUNNING and DRAINING, in
HALTED with FALLBACK LIVE (R11), and of a LIVE lane while the link is LOST (R20). -/

namespace Sys2Proof.Machine

/-- How a tick runs: how it takes the ends that fell due before it (log 9), what becomes of an error it
finds (R135), what is taken between its steps 1 and 2 and, knowing the rules attempted at step 2, between its steps
2 and 3 (R113, R126), and the state whose Curve Store gives its upper point (R79). -/
structure Course where
  takeEnds : State → State
  tell : State → ErrorDetail → State
  afterSource : State → State
  afterTriggers : List RuleId → State → State
  upper : State → State

/-- The course of a tick that nothing is taken within: every error is reported at once. -/
def Course.whole : Course := ⟨settle, report, id, fun _ => id, id⟩

/-- An error, if there is one, told. -/
def Course.told (c : Course) (s : State) (e : Option ErrorDetail) : State :=
  match e with
  | some e => c.tell s e
  | none => s

/-- A step of a tick goes on with a result, or the tick ends there with a HARD error, found and still to be
reported (R10, R138). -/
inductive Flow (α : Type) where
  | goOn (s : State) (a : α)
  | endedTick (s : State) (e : ErrorDetail)

/-- Where a tick leaves the part, and the errors it found, in order. -/
abbrev TickEnd := State × List ErrorDetail

/-! ## Step 1: the source stage (R17, R19, R58 to R62, R126) -/

/-- What the source stage gives: nothing on a FREEZE tick, with the rules that freeze it and apply, or on an
underrun; or a sensed code with the tag of its mark, if it presents one. -/
inductive Presented where
  | frozen (rules : List RuleId)
  | underrun
  | code (e : Int) (mark : Option Nat)
  deriving DecidableEq, Repr

/-- What step 1 leaves: what is presented, the replay word played, and the SOFT error it failed with. -/
structure Sourced where
  presented : Presented
  played : Option FetchWord := none
  error : Option ErrorDetail := none
  deriving DecidableEq, Repr

/-- R126: the rules of the chain whose action is FREEZE. -/
def freezers (s : State) (l : LaneId) : List RuleId :=
  (s.lane l).chain.filter fun i => (s.rule i).fields.action = .freeze

/-- R19: a tick consumes the live holding register. -/
def Lane.consumeLive (x : Lane) : Lane :=
  { x with
    live := { x.live with fresh := false, mark := false }
    counters := if x.live.fresh then x.counters
      else { x.counters with stale := countUp x.counters.stale } }

/-- R19: what the live holding register presents: its value, its mark with tag 0. -/
def LiveReg.presents (r : LiveReg) : Presented := .code r.value (if r.mark then some 0 else none)

/-- R17, R59: what a replay word presents; a word with HOLD set or failing its check presents the
previous sensed code, or 0, without a mark. -/
def replayPresents (prev : Option Int) (w : Word) : Presented :=
  if traceWordFails w || field w 25 1 = 1 then .code (prev.getD 0) none
  else .code (signedField w) (if field w 24 1 = 1 then some (field w 26 4) else none)

/-- R107, R115: APPLIED +1. -/
def Rule.applies (r : Rule) : Rule := { r with applied := countUp r.applied }

/-- R115: APPLIED +1 for each rule of a list. -/
def countApplied (s : State) (rules : List RuleId) : State :=
  rules.foldl (fun s i => s.modRule i Rule.applies) s

/-- R17: the source stage of a tick in RUNNING or DRAINING. The rules that make it a FREEZE tick act here and
apply, whatever the later steps bring (R114, R115, R126, log 42). -/
def sourceStage (s : State) (l : LaneId) : State × Sourced :=
  let x := s.lane l
  match freezers s l with
  | i :: rest => (countApplied s (i :: rest), { presented := .frozen (i :: rest) })
  | [] =>
    match x.config.source with
    | .live => (s.setLane l x.consumeLive, { presented := x.live.presents })
    | .constant => (s, { presented := .code x.config.constantCode none })
    | .replay =>
      let y := x.payDebt
      match y.queue with
      | [] => (s.setLane l x.underrun, { presented := .underrun })
      | q :: rest =>
        (s.setLane l { y with queue := rest },
          { presented := replayPresents x.prev q.word
            played := some q.place
            error := if traceWordFails q.word then some (.traceReplay l q.place.address) else none })

/-! ## Step 2: triggers and activation attempts (R96, R101 to R103) -/

/-- R96: whether a mark with this tag, or none, triggers an ON_MARK rule. -/
def markHits (tag mark : Option Nat) : Bool :=
  match mark with
  | none => false
  | some m => match tag with
    | none => true
    | some t => t = m

/-- R96: whether the step from the previous sensed code to this one crosses T. -/
def levelHits (t : Int) (edge : Edge) (prev : Option Int) (e : Int) : Bool :=
  match prev with
  | none => false
  | some p =>
    let up := decide (p < t) && decide (t ≤ e)
    let down := decide (t ≤ p) && decide (e < t)
    match edge with
    | .rising => up
    | .falling => down
    | .either => up || down

/-- R96: whether a tick of lane `l` that presents this triggers the rule. -/
def watchHits (l : LaneId) (prev : Option Int) (e : Int) (mark : Option Nat) (r : Rule) : Bool :=
  r.fields.watch = l.val &&
    match r.fields.trigger with
    | .onMark tag => markHits tag mark
    | .onLevel t edge => levelHits t edge prev e
    | _ => false

/-- R93: the base tick has come for every TRIGGERED rule of the lane. -/
def markBase (s : State) (l : LaneId) : State :=
  s.mapRules fun _ r =>
    if r.state = .triggered && r.fields.lane = l.val then { r with baseSeen := true } else r

/-- R101: whether a rule of lane `l` is due an attempt. -/
def attemptFalls (s : State) (l : LaneId) (i : RuleId) : Bool :=
  let r := s.rule i
  r.state = .triggered && r.attemptDue && r.fields.lane = l.val

/-- R101: the rules due at this tick, PRIORITY ascending, then index ascending. -/
def attemptsDue (s : State) (l : LaneId) : List RuleId :=
  (ruleNumbers.filter (attemptFalls s l)).foldl
    (fun sorted i => chainInsert (fun j => (s.rule j).fields.priority) i sorted) []

/-- R101: the three conditions of an attempt, judged against the chain as it stands. -/
def attemptSucceeds (s : State) (l : LaneId) (i : RuleId) : Bool :=
  let x := s.lane l
  let cls := classOf (s.rule i).fields.action
  decide (x.chain.length < Config.chainPlaces) &&
    (cls != .time || !x.chain.any fun j => classOf (s.rule j).fields.action = .time) &&
    (cls != .frame || x.config.portKind = .frame)

/-- R102, 3: the seed of a NOISE action, 0 loaded as 1. Another action has no seed and its NOISE_STATE is
"set the same way": the model loads 1 (log 29). -/
def noiseSeed (a : Action) : BitVec 23 :=
  match a with
  | .noise _ seed => if seed = 0 then 1 else BitVec.ofNat 23 seed
  | _ => 1

/-- R102, 2 and 3: the rule as it enters ACTIVE. -/
def Rule.activated (r : Rule) : Rule :=
  { r with
    state := .active
    durationCount := r.fields.duration
    noise := noiseSeed r.fields.action
    ramp := 0
    baseSeen := false
    attemptDue := false
    endDue := false }

/-- R103: the rule after a failed attempt. -/
def Rule.missedAttempt (r : Rule) : Rule :=
  { r with
    state := .armed
    delayCount := 0
    missed := countUp r.missed
    baseSeen := false
    attemptDue := false }

/-- R102: a rule enters ACTIVE and joins its lane's chain; the state, and the rules of the lane that its
ON_RULE delivery made due at this tick. -/
def activate (s : State) (l : LaneId) (i : RuleId) : State × List RuleId :=
  let s := s.modLane l fun x =>
    { x with chain := chainInsert (fun j => (s.rule j).fields.priority) i x.chain }
  let s := s.modRule i Rule.activated
  let s := offerRuleEvent s i .active
  let t := deliverOnRule s i .active (some l)
  (t, ruleNumbers.filter fun j => !attemptFalls s l j && attemptFalls t l j)

/-- R103: a failed attempt; an IMMEDIATE rule is triggered again at once, with its base tick the next
(R94). -/
def missAttempt (s : State) (i : RuleId) : State :=
  let s := s.modRule i Rule.missedAttempt
  let s := offerRuleEvent s i .missed
  s.modRule i (judgeImmediate s)

/-- R108: a rule that fails its check becomes VACANT and leaves its chain. -/
def vacate (s : State) (i : RuleId) : State := (leaveChains s i).setRule i .vacant

/-- R101: the attempts of a tick, one at a time: first the due ones in order, then those that become due
on the way, in the order their triggers arose; each rule at most once. `fuel` bounds their number. A rule
that fails its check ends the tick with a HARD RULE_CHECK error (R108, log 14). The result is the rules that
have been attempted, the last one first. -/
def runAttempts (l : LaneId) : Nat → List RuleId → List RuleId → State → Flow (List RuleId)
  | 0, _, done, s => .goOn s done
  | _ + 1, [], done, s => .goOn s done
  | fuel + 1, i :: todo, done, s =>
    if (s.rule i).codeOk then
      if attemptSucceeds s l i then
        let next := activate s l i
        let more := next.2.filter fun j => !(i :: done).contains j && !todo.contains j
        runAttempts l fuel (todo ++ more) (i :: done) next.1
      else runAttempts l fuel todo (i :: done) (missAttempt s i)
    else .endedTick (vacate s i) (.ruleCheck l i)

/-- Step 2 of a tick (R16, R96, R101, R107): a presented code is offered as a trigger and becomes the
previous sensed code; due attempts are made on every tick but an underrun. The result is the rules
attempted. -/
def step2 (s : State) (l : LaneId) (p : Presented) : Flow (List RuleId) :=
  match p with
  | .underrun => .goOn s []
  | .frozen _ =>
    let s := markBase s l
    runAttempts l 256 (attemptsDue s l) [] s
  | .code e mark =>
    let s := offerTrigger s (some l) (watchHits l (s.lane l).prev e mark)
    let s := s.modLane l fun x => { x with prev := some e }
    let s := markBase s l
    runAttempts l 256 (attemptsDue s l) [] s

/-! ## Step 3: the chain, the gates, and the TICKS counts (R99, R100, R107, R108) -/

/-- R99, R100: what a counting tick of lane `l` does to a rule that counts in TICKS. -/
def Rule.countTick (l : LaneId) (inChain : Bool) (r : Rule) : Rule :=
  if r.fields.unit = .ticks then
    if r.state = .triggered && r.fields.lane = l.val && r.baseSeen && 0 < r.delayCount then
      { r with delayCount := r.delayCount - 1 }
    else if inChain && r.state = .active && 0 < r.durationCount then
      { r with durationCount := r.durationCount - 1, endDue := r.durationCount = 1 }
    else r
  else r

/-- Step 3 of a tick: the check codes of the chain given, in chain order, so that of several rules that
fail the first alone is found (R108, R135, log 35); then the draws, then the counts. The result is the chain
with the gate of each rule. -/
def step3 (s : State) (l : LaneId) : Flow (List (RuleId × Bool)) :=
  let chain := (s.lane l).chain
  match chain.find? fun i => !(s.rule i).codeOk with
  | some i => .endedTick (vacate s i) (.ruleCheck l i)
  | none =>
    let d := drawGates (fun i => (s.rule i).fields.intermittency) chain (s.lane l).gate
    let s := s.modLane l fun x => { x with gate := d.2 }
    .goOn (s.mapRules fun i r => r.countTick l (chain.contains i)) d.1

/-! ## Step 4: the conversion path (R68 to R85) -/

/-- The applying rules of a class, in chain order: those that pass their gate (R70, R115). -/
def applying (s : State) (gates : List (RuleId × Bool)) (cls : ActionClass) : List RuleId :=
  (gates.filter fun g => g.2 && classOf (s.rule g.1).fields.action = cls).map Prod.fst

/-- R70, R71: the value stage: each applying VALUE rule on the result of the one before; the code left and
whether a sat() changed its argument. -/
def valueStage : List RuleId → State → Int → Bool → State × Int × Bool
  | [], s, e, clamped => (s, e, clamped)
  | i :: rest, s, e, clamped =>
    let r := s.rule i
    let v := valueAction r.fields.action e r.noise r.ramp
    valueStage rest (s.setRule i { r.applies with noise := v.noise, ramp := v.ramp }) v.e
      (clamped || v.clamped)

/-- R72: SATURATIONS +1 when the value stage ends with SATURATED set. -/
def Lane.countSaturation (clamped : Bool) (x : Lane) : Lane :=
  if clamped then
    { x with counters := { x.counters with saturations := countUp x.counters.saturations } }
  else x

/-- What step 4 hands on: W, SWAP and FAULTED (R68), with the history as it stood before the push. -/
structure Path where
  word : OutCode
  swap : Bool
  faulted : Bool
  before : List OutCode
  deriving DecidableEq, Repr

/-- Step 4 of a presenting tick (R69): value, curve, code and format stage. A failing point ends the tick
with a HARD CURVE_CHECK error (R77); the ends that step 3 brought are taken before it (log 9). `upper` is
the state whose Curve Store gives the upper point. -/
def step4 (upper : State → State) (s : State) (l : LaneId) (gates : List (RuleId × Bool)) (e : Int) :
    Flow Path :=
  let values := applying s gates .value
  let v := valueStage values s e false
  let s := v.1.modLane l (Lane.countSaturation v.2.2)
  match curveStageOver s (upper s) (s.lane l).config.curve v.2.1 with
  | .fails c k => .endedTick (settle s) (.curveCheck l c k)
  | .code o =>
    let codes := applying s gates .code
    let o := codes.foldl (fun o i => codeAction (s.rule i).fields.action o) o
    let swap := codes.any fun i => (s.rule i).fields.action = .orderSwap
    let s := countApplied s codes
    let before := (s.lane l).history
    let w := formatWord (s.lane l).config.wordLength o
    let s := s.modLane l fun x => { x with history := pushHistory x.history w }
    .goOn s ⟨w, swap, !values.isEmpty || !codes.isEmpty, before⟩

/-! ## Steps 5 to 7 (R124 to R131, R163) -/

/-- The word chosen for the hand-over, whether it is other than this tick's W (R163 HELD), and SWAP and
FAULTED so far. -/
structure Chosen where
  word : OutCode
  held : Bool
  swap : Bool
  faulted : Bool
  deriving DecidableEq, Repr

/-- Step 5 of a presenting tick (R124): the TIME rule that applies chooses the word, or W is handed on. -/
def timeStage (s : State) (l : LaneId) (gates : List (RuleId × Bool)) (p : Path) : State × Chosen :=
  let x := s.lane l
  match applying s gates .time with
  | [] => (s, ⟨p.word, false, p.swap, p.faulted⟩)
  | i :: _ =>
    let w := timeWord (s.rule i).fields.action x.holdWord x.config.restWord p.word p.before
    (countApplied s [i], ⟨w, true, p.swap, true⟩)

/-- Step 5 of a FREEZE tick (R126): the hold word. The rules that froze the tick have applied at its step 1;
a FREEZE rule that joined the chain at its step 2 applies here (R115, log 42). -/
def freezeStage (s : State) (l : LaneId) (frozen : List RuleId) (gates : List (RuleId × Bool)) :
    State × Chosen :=
  let given := (gates.map Prod.fst).filter fun i => (s.rule i).fields.action = .freeze
  (countApplied s (given.filter fun i => !frozen.contains i),
    ⟨(s.lane l).holdWord, true, false, true⟩)

/-- Steps 6 and 7 (R129, R131, R16): line state, frame flags, hand-over. -/
def finishTick (s : State) (l : LaneId) (gates : List (RuleId × Bool)) (c : Chosen) : State :=
  let lines := applying s gates .line
  let frames := applying s gates .frame
  let line := lines.foldl (fun st i => lineAfter (s.rule i).fields.action st) .normal
  let bad := frames.any fun i => (s.rule i).fields.action = .checkBad
  let mode := frames.foldl (fun m i => sequenceAfter (s.rule i).fields.action m) .normal
  let s := countApplied s (lines ++ frames)
  handOver s l
    ⟨⟨c.word, line, c.swap, bad, mode⟩, c.held, c.faulted || !lines.isEmpty || !frames.isEmpty⟩

/-- R9, R58: after the tick that played it, the last word of a drained pass, or else of the playlist,
takes the lane OFF with its notice; the ends that the tick brought are taken before (log 9). -/
def endOfPlay (s : State) (l : LaneId) (played : Option FetchWord) : State :=
  match played with
  | none => s
  | some w =>
    let x := s.lane l
    if x.state = .draining && w.endOfPass then offerLaneEnded (laneOff (settle s) l) l .drained
    else if lastWordOfPlaylist x w then offerLaneEnded (laneOff (settle s) l) l .ended
    else s

/-! ## Ticks -/

/-- R24: TICKS +1 (at the beginning of the tick, log 10). -/
def Lane.countTickTaken (x : Lane) : Lane :=
  { x with counters := { x.counters with ticks := countUp x.counters.ticks } }

/-- Steps 4 to 7 of a tick in RUNNING or DRAINING, after step 3 has given the gates. -/
def lastSteps (c : Course) (s : State) (l : LaneId) (from1 : Sourced) (gates : List (RuleId × Bool)) :
    Flow Unit :=
  match from1.presented with
  | .frozen rules =>
    let f := freezeStage s l rules gates
    .goOn (finishTick f.1 l gates f.2) ()
  | .underrun => .goOn (finishTick s l gates ⟨(s.lane l).holdWord, true, false, false⟩) ()
  | .code e _ =>
    match step4 c.upper s l gates e with
    | .endedTick s err => .endedTick s err
    | .goOn s path =>
      let f := timeStage s l gates path
      .goOn (endOfPlay (finishTick f.1 l gates f.2) l from1.played) ()

/-- Steps 2 to 7 of a tick in RUNNING or DRAINING. -/
def laterSteps (c : Course) (s : State) (l : LaneId) (from1 : Sourced) : Flow Unit :=
  match step2 (c.afterSource s) l from1.presented with
  | .endedTick s e => .endedTick s e
  | .goOn s attempted =>
    match step3 (c.afterTriggers attempted s) l with
    | .endedTick s e => .endedTick s e
    | .goOn s gates => lastSteps c s l from1 gates

/-- R16: a tick in RUNNING or DRAINING. A SOFT error of step 1 is told and the tick goes on; a HARD error
ends it and is told then (R137, R138). -/
def fullTick (c : Course) (s : State) (l : LaneId) : TickEnd :=
  let source := sourceStage (s.modLane l Lane.countTickTaken) l
  match laterSteps c (c.told source.1 source.2.error) l source.2 with
  | .goOn s _ => (s, source.2.error.toList)
  | .endedTick s e => (c.tell s e, source.2.error.toList ++ [e])

/-- R20: the word a LIVE lane sends while the link is LOST. -/
def Lane.lostWord (x : Lane) : OutCode :=
  match x.config.fallback with
  | .hold => x.holdWord
  | .rest => x.config.restWord
  | .live => x.holdWord

/-- R20: a tick of a LIVE lane while the link is LOST. -/
def lostTick (s : State) (l : LaneId) : State :=
  let s := s.modLane l fun x =>
    { x.countTickTaken with
      counters := { x.countTickTaken.counters with lostTicks := countUp x.counters.lostTicks } }
  handOver s l (plainHandOver (s.lane l).lostWord true)

/-- R11, R84: a tick of a HALTED lane with FALLBACK LIVE. While the link is LOST it hands the hold word
and consumes nothing (log 13). A failing point is told, and the hold word handed after it (R77). -/
def haltedTick (c : Course) (s : State) (l : LaneId) : TickEnd :=
  let s := s.modLane l Lane.countTickTaken
  if s.link.state = .lost then (handOver s l (plainHandOver (s.lane l).holdWord true), [])
  else
    let e := (s.lane l).live.value
    let s := s.modLane l fun x => { x.consumeLive with prev := some e }
    match curveStageOver s (c.upper s) (s.lane l).config.curve e with
    | .fails curve k =>
      let err := .curveCheck l curve k
      let s := c.tell s err
      (handOver s l (plainHandOver (s.lane l).holdWord true), [err])
    | .code o =>
      let w := formatWord (s.lane l).config.wordLength o
      let s := s.modLane l fun x => { x with history := pushHistory x.history w }
      (handOver s l (plainHandOver w false), [])

/-- One tick of a lane, by its state (01, Lane states; R11, R16, R20). Ends that fell due before it are
taken first (log 9). A lane that takes no ticks is left as it is. -/
def laneTick (c : Course) (s : State) (l : LaneId) : TickEnd :=
  let s := c.takeEnds s
  let x := s.lane l
  match x.state with
  | .off => (s, [])
  | .primed => (s, [])
  | .running =>
    if x.config.source = .live && s.link.state = .lost then (lostTick s l, []) else fullTick c s l
  | .draining => fullTick c s l
  | .halted => if x.config.fallback = .live then haltedTick c s l else (s, [])

/-! ## Cycle marks at a lane (R6, R14, R15) -/

/-- R6: whether a PRIMED lane starts at a mark of this number: it is late, or the mark reaches its start cycle
(log 44). -/
def Lane.startsAt (number : Word) (x : Lane) : Bool :=
  x.late || startReached number x.startCycle

/-- R6, R14, R15: a PRIMED lane enters RUNNING at its start mark: a TIMED lane's later ticks fall every
DIVISOR × 100 ns from now; a CYCLE lane counts marks from 0. -/
def Lane.startRunning (now : Nat) (x : Lane) : Lane :=
  match x.config.timing with
  | .timed =>
    { x with
      state := .running
      pacing := .timed (now + x.config.divisor * 100) (x.config.divisor * 100) }
  | .cycle => { x with state := .running, pacing := .marks x.config.cycleDivider, markCount := 0 }

/-- R6, R15: lane `l` takes a cycle mark of this number; `tick` is its tick, if it takes one. -/
def laneTakesMark (tick : State → LaneId → State) (s : State) (l : LaneId) (number : Word) : State :=
  let x := s.lane l
  match x.state, x.pacing with
  | .primed, _ => if x.startsAt number then tick (s.setLane l (x.startRunning s.now)) l else s
  | _, .marks k =>
    let s := s.setLane l { x with markCount := x.markCount + 1 }
    if (x.markCount + 1) % k = 0 then tick s l else s
  | _, _ => s

/-- R151, step 4: one taker takes the mark, a lane by the tick that its operand gives. -/
def takeMark (tick : Within → State → LaneId → State) (number : Word) (s : State) (t : MarkTaker) : State :=
  match t with
  | .ruleTable => ruleTableMark s number
  | .lane l within => laneTakesMark (tick within) s l number

/-- The takers of a list, each at its first place, but for those already seen. -/
def firstPlaces : List (Option LaneId) → List MarkTaker → List MarkTaker
  | _, [] => []
  | seen, t :: rest =>
    if seen.contains t.taker then firstPlaces seen rest else t :: firstPlaces (t.taker :: seen) rest

/-- The order in which a mark is taken (log 8): as the command names it, then the Rule Table and the
lanes it does not name; a taker named again takes it once. -/
def markOrder (named : List MarkTaker) : List MarkTaker :=
  firstPlaces [] (named ++ MarkTaker.ruleTable :: laneNumbers.map fun l => .lane l)

end Sys2Proof.Machine
end

