-- ==== Sys2Proof/Machine/TraceMemory.lean ====
section
/-! DEFINITION. Machine/TraceMemory.lean: the TMC, the fill engine, and the requests of the Command Unit
(02, R25 to R33, R36, R41, R44), the issue of a fetch, and the meanings of their rows. -/

namespace Sys2Proof.Machine

/-! ## Places of an address (R25) -/

/-- R25: the bank group of an address. -/
def groupOf (a : Nat) : GroupId := Fin.ofNat 8 (a / 512)

/-- R25: the bank of an address within its group. -/
def bankOf (a : Nat) : BankId := Fin.ofNat 2 (a / 4096)

/-- R25: the memory row of an address. -/
def rowOf (a : Nat) : Nat := a / 8192

/-- The first address a request concerns; a request concerns at least one. -/
def Request.first (r : Request) : Nat := r.addresses.headD 0

/-- R28: a request is SHORT when every word it concerns lies in one aligned half of 8 words. -/
def Request.short (r : Request) : Bool := r.addresses.all fun a => a / 8 = r.first / 8

/-- A request handed to the TMC joins its pending set (R28). -/
def issueRequest (s : State) (who : Requester) (addresses : List Nat) (data : Option (List Word))
    (closeAfter : Bool) : State :=
  { s with
    tmc := { s.tmc with requests := s.tmc.requests ++ [⟨who, addresses, data, closeAfter, s.now, 0⟩] } }

/-! ## Arbitration (R29, R30) -/

/-- R29, R32: a group is idle: no access in flight, no extra busy time, no refresh. -/
def BankGroup.idle (g : BankGroup) : Bool :=
  g.access.isNone && g.busyUntil.isNone && g.refreshUntil.isNone

/-- R29: a pending request is eligible when its group is idle and has no refresh waiting. -/
def eligible (s : State) (r : Request) : Bool :=
  let g := s.group (groupOf r.first)
  g.idle && !g.refreshWaiting

/-- R29: a fetch is URGENT when its lane's fill is 8 or fewer and it is not voided. -/
def urgent (s : State) (l : LaneId) : Bool :=
  let x := s.lane l
  decide (x.fill ≤ 8) && !(match x.fetch with | some f => f.voided | none => true)

/-- R29, R30: the class in which a request is granted, lower first: a pass count of 16 before all, the
Command Unit's before the fill engine's; then URGENT fetches, other fetches, the Command Unit, the fill
engine. -/
def grantClass (s : State) (r : Request) : Nat :=
  match r.requester with
  | .command => if 16 ≤ r.passes then 0 else 4
  | .fill => if 16 ≤ r.passes then 1 else 5
  | .lane l => if urgent s l then 2 else 3

/-- R29: the lane number that orders fetches issued at one instant. -/
def Request.laneRank (r : Request) : Nat :=
  match r.requester with
  | .lane l => l.val
  | .command => 0
  | .fill => 0

/-- R29: whether a request is granted before another: by class, then age, then lane number. -/
def grantedBefore (s : State) (a b : Request) : Bool :=
  let ca := grantClass s a
  let cb := grantClass s b
  decide (ca < cb) ||
    (ca = cb && (decide (a.issued < b.issued) || (a.issued = b.issued && decide (a.laneRank < b.laneRank))))

/-- R29: the request the arbiter grants among the eligible ones, if there is one. -/
def arbitrate (s : State) : Option Request :=
  (s.tmc.requests.filter (eligible s)).foldl
    (fun best r => match best with
      | none => some r
      | some b => if grantedBefore s r b then some r else some b)
    none

/-- R30: a pass count after a grant to another request; only the Command Unit's and the fill engine's
request keep one, it counts while they are eligible, and it stops at 16. -/
def passedOver (s : State) (r : Request) : Request :=
  match r.requester with
  | .lane _ => r
  | .command => if eligible s r then { r with passes := min 16 (r.passes + 1) } else r
  | .fill => if eligible s r then { r with passes := min 16 (r.passes + 1) } else r

/-- R27: the case of an access at its grant. -/
def rowCaseOf (g : BankGroup) (a : Nat) : RowCase :=
  match g.openRows[(bankOf a).val] with
  | none => .closed
  | some row => if row = rowOf a then .hit else .miss

/-- R31: the time of an access, by its case and length. -/
def accessTime (c : RowCase) (short : Bool) : Nat :=
  match c, short with
  | .hit, false => 40
  | .hit, true => 32
  | .closed, false => 65
  | .closed, true => 57
  | .miss, false => 85
  | .miss, true => 77

/-- R29 to R31: the state after a grant of request `r`. -/
def grant (s : State) (r : Request) : State :=
  let g := groupOf r.first
  let x := s.group g
  let c := rowCaseOf x r.first
  let rest := (s.tmc.requests.erase r).map (passedOver s)
  let s := { s with tmc := { s.tmc with requests := rest } }
  s.setGroup g { x with access := some ⟨r, c, s.now + accessTime c r.short⟩ }

/-- TMC_GRANT (R29): whenever a request is eligible, the arbiter grants one. -/
def execTmcGrant (s : State) : Host.Outcome State Fault Refusal :=
  match arbitrate s with
  | some r => .next (grant s r)
  | none => .refused (.notPossible "TMC_GRANT")

/-! ## Completion (R27, R31) -/

/-- The group in which an access of this requester is in flight, with the access. -/
def inFlight (s : State) (who : Requester) : Option (GroupId × Access) :=
  groupNumbers.findSome? fun g =>
    match (s.group g).access with
    | some a => if a.request.requester = who then some (g, a) else none
    | none => none

/-- R31: the extra busy time after an access. -/
def extraBusy (r : Request) : Option Nat :=
  if r.closeAfter then some 20
  else match r.data with
    | some _ => some 15
    | none => none

/-- R27, R31: an access completes at its time: a write has changed its words, the bank's open row is set,
and the extra busy time begins. -/
def completeAccess (s : State) (g : GroupId) (a : Access) : State :=
  let s := s.reach a.doneAt
  let s := match a.request.data with
    | some ws => { s with mem := s.mem.writeAll (a.request.addresses.zip ws) }
    | none => s
  let x := s.group g
  let row := if a.request.closeAfter then none else some (rowOf a.request.first)
  s.setGroup g
    { x with
      openRows := x.openRows.set (bankOf a.request.first).val row
      access := none
      busyUntil := match extraBusy a.request with
        | some t => some (s.now + t)
        | none => none }

/-! ## Fetches (R52 to R57) -/

/-- R55: a lane issues the fetch of these words of entry `e`. -/
def issueFetch (s : State) (l : LaneId) (e : PlaylistEntry) (words : List FetchWord) : State :=
  match words.getLast? with
  | none => s
  | some last =>
    let x := s.lane l
    let pos := advancedPos x e last
    let close := closeAfterFor s x pos last.address
    let s := s.setLane l { x with fetch := some ⟨words, false⟩, fetchPos := pos }
    issueRequest s (.lane l) (words.map FetchWord.address) none close

/-- R52: the PLAYLIST_CHECK error that a lane which wants a fetch finds in the entry of its fetch
position. -/
def fetchError (s : State) (l : LaneId) : Option ErrorDetail :=
  let x := s.lane l
  match x.fetchWanted with
  | none => none
  | some p =>
    match x.playlist[p.entry]? with
    | none => some (.playlistCheck l p.entry)
    | some e => if entryPasses s e then none else some (.playlistCheck l p.entry)

/-- R56: the words of a fetch take their reserved places at the tail of the queue, as they stand in trace
memory. -/
def Lane.placeFetch (m : Memory) (x : Lane) : Lane :=
  match x.fetch with
  | some f =>
    { x with queue := x.queue ++ f.words.map fun w => ⟨m.read w.address, w⟩, fetch := none }
  | none => x

/-- R57: a voided fetch's record is cleared, its reserved places freed. -/
def Lane.dropFetch (x : Lane) : Lane := { x with fetch := none }

/-- Whether the lane's fetch in flight is voided. -/
def Lane.fetchVoided (x : Lane) : Bool :=
  match x.fetch with
  | some f => f.voided
  | none => false

/-- FETCH_COMPLETE (R56): a fetch that was not voided completes. -/
def execFetchComplete (l : LaneId) (s : State) : Host.Outcome State Fault Refusal :=
  match inFlight s (.lane l) with
  | some (g, a) =>
    let t := completeAccess s g a
    whenPossible (!(s.lane l).fetchVoided) "FETCH_COMPLETE" (t.modLane l (Lane.placeFetch t.mem))
  | none => .refused (.notPossible "FETCH_COMPLETE")

/-- VOIDED_FETCH_COMPLETE (R57): a voided fetch completes and its words are discarded. -/
def execVoidedFetchComplete (l : LaneId) (s : State) : Host.Outcome State Fault Refusal :=
  match inFlight s (.lane l) with
  | some (g, a) =>
    whenPossible (s.lane l).fetchVoided "VOIDED_FETCH_COMPLETE"
      ((completeAccess s g a).modLane l Lane.dropFetch)
  | none => .refused (.notPossible "VOIDED_FETCH_COMPLETE")

/-! ## Zero fill (R36, R37) -/

/-- R36: the words of a block. -/
def Block.words (b : Block) : Nat := b.rows * b.columns

/-- R36: a block of N words is covered by ⌈N / 16⌉ fill writes. -/
def Block.fillGroups (b : Block) : Nat := (b.words + 15) / 16

/-- R36: the block's own addresses in the n-th aligned group of its fill. -/
def fillAddresses (b : Block) (n : Nat) : List Nat :=
  (List.range (min 16 (b.words - 16 * n))).map fun i => b.base + 16 * n + i

/-- R36: the fill engine, with no write in hand, issues the next write of the block at the head of the
fill queue; with an empty queue it is idle. -/
def fillNext (s : State) : State :=
  match s.dir.fillQueue with
  | [] => s
  | b :: _ =>
    let addresses := fillAddresses (s.block b) s.dir.fillDone
    let s := { s with dir := { s.dir with fillReq := .writing } }
    issueRequest s .fill addresses (some (addresses.map fun _ => 0)) false

/-- R36: the head block's fill has ended: it becomes READY, leaves the queue, and BLOCK_READY is offered. -/
def blockReady (s : State) (b : BlockId) : State :=
  let s := s.setBlock b { s.block b with state := .ready }
  let s := { s with dir := { s.dir with fillQueue := s.dir.fillQueue.tail, fillDone := 0 } }
  offerNotice s .blockReady [numberWord b.val, s.link.currentCycle]

/-- R36, R37: what the completion of a fill write does in the directory: a discarded one counts for
nothing; a counted one may end the head's fill. Then the engine goes on. -/
def fillCompleted (s : State) : State :=
  let discarded := s.dir.fillReq = .discarding
  let s := { s with dir := { s.dir with fillReq := .idle } }
  if discarded then fillNext s
  else
    match s.dir.fillQueue with
    | [] => s
    | b :: _ =>
      let s := { s with dir := { s.dir with fillDone := s.dir.fillDone + 1 } }
      if (s.block b).fillGroups ≤ s.dir.fillDone then fillNext (blockReady s b) else fillNext s

/-- FILL_WRITE_COMPLETE (R36). -/
def execFillWriteComplete (s : State) : Host.Outcome State Fault Refusal :=
  match inFlight s .fill with
  | some (g, a) => .next (fillCompleted (completeAccess (settle s) g a))
  | none => .refused (.notPossible "FILL_WRITE_COMPLETE")

/-! ## Refresh and busy times (R31, R32) -/

/-- R32: the k-th due time of group g in ns, 487.5 × g + 3,900 × k rounded down to a multiple of 5. -/
def refreshDueAt (g : GroupId) (k : Nat) : Nat := (4875 * g.val + 39000 * k) / 50 * 5

/-- R32: a refresh keeps its group busy for 260 ns from its start. -/
def BankGroup.startRefresh (now : Nat) (x : BankGroup) : BankGroup :=
  { x with refreshWaiting := false, refreshUntil := some (now + 260) }

/-- GROUP_BUSY_END (R31): the extra busy time ends and the group becomes free. -/
def execGroupBusyEnd (g : GroupId) (s : State) : Host.Outcome State Fault Refusal :=
  match (s.group g).busyUntil with
  | some t => .next ((s.reach t).setGroup g { s.group g with busyUntil := none })
  | none => .refused (.notPossible "GROUP_BUSY_END")

/-- REFRESH_DUE (R32): the group's next refresh falls due; it starts at once if the group is idle, and
otherwise waits. The schedule runs from the rising edge of RESET_N. -/
def execRefreshDue (g : GroupId) (s : State) : Host.Outcome State Fault Refusal :=
  let x := s.group g
  let t := s.reach (refreshDueAt g x.refreshCount)
  let y := { x with refreshCount := x.refreshCount + 1 }
  whenPossible (!s.resetLow) "REFRESH_DUE"
    (t.setGroup g (if x.idle then y.startRefresh t.now else { y with refreshWaiting := true }))

/-- REFRESH_START (R32): a waiting refresh starts when its group is idle. -/
def execRefreshStart (g : GroupId) (s : State) : Host.Outcome State Fault Refusal :=
  let x := s.group g
  whenPossible (x.refreshWaiting && x.idle) "REFRESH_START" (s.setGroup g (x.startRefresh s.now))

/-- REFRESH_END (R27, R32): a refresh ends with no open row in either bank, and the group is free. -/
def execRefreshEnd (g : GroupId) (s : State) : Host.Outcome State Fault Refusal :=
  match (s.group g).refreshUntil with
  | some t =>
    .next ((s.reach t).setGroup g
      { s.group g with refreshUntil := none, openRows := Vector.replicate 2 none })
  | none => .refused (.notPossible "REFRESH_END")

end Sys2Proof.Machine
end

