-- ==== Sys2Proof/Machine/LinkPort.lean ====
section
/-! DEFINITION. Machine/LinkPort.lean: the Link Port and the Return Sender: the meanings of the inbound
words, the silence timer, and the return direction (08, R148 to R164), and of the board's events
PRESENCE_CHANGE and STORE_CORRUPTION. -/

namespace Sys2Proof.Machine

/-- An event from outside: time passes; while RESET_N is low the part holds its hard-reset state and
takes nothing (R13, log 26). -/
def fromOutside (s : State) (wait : Nat) (effect : State → State) : Host.Outcome State Fault Refusal :=
  if s.resetLow then .next s else .next (effect (s.pass wait))

/-! ## Cycle marks (R151, R152) -/

/-- R151, 1: in UP and LOST a number other than CURRENT_CYCLE + 1 is a jump, counted and reported. -/
def checkJump (s : State) (number : Word) : State :=
  let expected := s.link.currentCycle + 1
  if s.link.state = .waiting || number = expected then s
  else
    let s := { s with link := { s.link with cycleJumps := countUp s.link.cycleJumps } }
    offerNotice s .cycleJump [expected, number]

/-- R151, 2 and 3: the mark's number becomes CURRENT_CYCLE, the link is UP and the timer restarts. -/
def linkTakesMark (s : State) (number : Word) : State :=
  { s with link := { s.link with state := .up, currentCycle := number, lastMark := s.now } }

/-- R152: the link goes LOST and a LINK_LOST notice is offered. -/
def linkLost (s : State) : State :=
  let s := { s with link := { s.link with state := .lost } }
  offerNotice s .linkLost [s.link.currentCycle, numberWord s.link.silenceLimit]

/-- SILENCE_TIMER_EXPIRY (R152, R153): the silence timer reaches SILENCE_LIMIT in UP. -/
def execSilenceTimerExpiry (s : State) : Host.Outcome State Fault Refusal :=
  whenPossible (s.link.state = .up) "SILENCE_TIMER_EXPIRY"
    (linkLost ((settle s).reach (s.link.lastMark + s.link.silenceLimit * 1000)))

/-! ## Samples (R18, R154) -/

/-- R18: a SAMPLE at a lane: HOLD set leaves the value; fresh is set; a mark is set and never cleared;
SUPERSEDED +1 when fresh was set and the lane takes ticks. -/
def Lane.takeSample (value : Int) (mark hold : Bool) (x : Lane) : Lane :=
  { x with
    live := ⟨if hold then x.live.value else value, true, x.live.mark || mark⟩
    counters := if x.live.fresh && x.takesTicks then
        { x.counters with superseded := countUp x.counters.superseded }
      else x.counters }

/-- R154: a SAMPLE word is routed to the lane it names, or discarded with BAD_LANE +1. -/
def takeSampleWord (s : State) (data : Word) : State :=
  match toFin? (field data 26 6) 24 with
  | some l =>
    s.modLane l (Lane.takeSample (signedField data) (field data 25 1 = 1) (field data 24 1 = 1))
  | none => { s with link := { s.link with badLane := countUp s.link.badLane } }

/-- SAMPLE (R154). -/
def execSample (wait : Nat) (data : Word) (s : State) : Host.Outcome State Fault Refusal :=
  fromOutside s wait fun s => takeSampleWord s data

/-! ## Record assembly (R155 to R158) -/

/-- The open record, the newest of the queue, changed by `f` (R155). -/
def onOpenRecord (f : Place → Place) (q : List Place) : List Place :=
  q.map fun p => if p.state = .assembling then f p else p

/-- R156: a record is closed and handed to the Command Unit. -/
def Place.close (p : Place) : Place := { p with state := .waiting }

/-- R157: a record closed short: TRUNCATED unless it is already CORRUPT. -/
def Place.closeShort (p : Place) : Place :=
  { p with state := .waiting, mark := if p.mark = .corrupt then .corrupt else .truncated }

/-- R155, 1: an open record is closed short, a skip ends. -/
def endAssembly (s : State) : State :=
  match s.link.assembler with
  | .idle => s
  | .opened _ =>
    { s with
      cmd := { s.cmd with queue := onOpenRecord Place.closeShort s.cmd.queue }
      link := { s.link with assembler := .idle } }
  | .skipping _ => { s with link := { s.link with assembler := .idle } }

/-- R158: a header that finds every place held is discarded, counted and reported; its payload is
skipped. -/
def headerOverrun (s : State) (data : Word) : State :=
  let len := field data 10 6
  let s := { s with
    link := { s.link with
      overrun := countUp s.link.overrun
      assembler := if len = 0 then .idle else .skipping len } }
  offerNotice s .overrun
    [packWord [(field data 24 8, 0), (field data 16 8, 8)], numberWord s.link.overrun]

/-- R155, 3: a header takes a place; with length 0 its record is complete at once. -/
def headerTakesPlace (s : State) (data : Word) : State :=
  let len := field data 10 6
  let place : Place :=
    { state := if len = 0 then .waiting else .assembling
      code := field data 24 8
      tag := field data 16 8
      length := len
      index := field data 0 10
      payload := []
      mark := .complete }
  { s with
    cmd := { s.cmd with queue := s.cmd.queue ++ [place] }
    link := { s.link with assembler := if len = 0 then .idle else .opened len } }

/-- R155: a HEADER word. -/
def takeHeader (s : State) (data : Word) : State :=
  let s := endAssembly s
  if s.cmd.queue.length < Config.commandPlaces then headerTakesPlace s data else headerOverrun s data

/-- HEADER (R155). -/
def execHeader (wait : Nat) (data : Word) (s : State) : Host.Outcome State Fault Refusal :=
  fromOutside s wait fun s => takeHeader (settle s) data

/-- R156: a PAYLOAD word, by the assembler's state. -/
def takePayload (s : State) (data : Word) : State :=
  match s.link.assembler with
  | .idle => { s with link := { s.link with stray := countUp s.link.stray } }
  | .opened expected =>
    let add : Place → Place := fun p => { p with payload := p.payload ++ [data] }
    if expected ≤ 1 then
      { s with
        cmd := { s.cmd with queue := onOpenRecord (fun p => (add p).close) s.cmd.queue }
        link := { s.link with assembler := .idle } }
    else
      { s with
        cmd := { s.cmd with queue := onOpenRecord add s.cmd.queue }
        link := { s.link with assembler := .opened (expected - 1) } }
  | .skipping left =>
    { s with link := { s.link with
        assembler := if left ≤ 1 then .idle else .skipping (left - 1) } }

/-- PAYLOAD (R156). -/
def execPayload (wait : Nat) (data : Word) (s : State) : Host.Outcome State Fault Refusal :=
  fromOutside s wait fun s => takePayload s data

/-- R149: an open record touched by a parity failure is marked CORRUPT. -/
def Place.corrupted (p : Place) : Place := { p with mark := .corrupt }

/-- R149: a word that fails its parity: counted, reported, and it marks an open record CORRUPT. -/
def takeBadWord (s : State) : State :=
  let s := { s with link := { s.link with badWords := countUp s.link.badWords } }
  let s := match s.link.assembler with
    | .idle => s
    | .opened _ => { s with cmd := { s.cmd with queue := onOpenRecord Place.corrupted s.cmd.queue } }
    | .skipping _ => s
  report s .linkWord

/-- LINK_WORD_BAD (R149). -/
def execLinkWordBad (wait : Nat) (s : State) : Host.Outcome State Fault Refusal :=
  fromOutside s wait fun s => takeBadWord (settle s)

/-! ## The return direction (R143, R148, R160) -/

/-- The link kinds of the return direction (10, Link word). -/
inductive OutKind where
  | tap | header | payload
  deriving DecidableEq, Repr

/-- The code of an outbound kind. -/
def OutKind.code : OutKind → Nat
  | .tap => 1
  | .header => 2
  | .payload => 3

/-- R160: a word begins on the return direction and takes 16 ns; `left` is what then still goes of the
record in transfer. -/
def sendWord (s : State) (kind : OutKind) (data : Word) (left : Option (List Word)) : State :=
  { s with
    ret := { s.ret with
      inTransfer := left
      slotEnd := some (s.now + Config.linkSlot)
      wire := some (makeLinkWord kind.code data) } }

/-- A record of a header and `n` payload words: what is in transfer after its header (R159). -/
def restOf (payload : List Word) : Option (List Word) := if payload.isEmpty then none else some payload

/-- R160: with no record in transfer, the next thing to send: a reply, else a notice, else a TAP word;
with none the direction is free. A header carries the attention flag as it stands (R143). -/
def sendNext (s : State) : State :=
  match s.ret.replies, s.ret.notices, s.ret.taps with
  | r :: rest, _, _ =>
    let s := { s with ret := { s.ret with replies := rest } }
    sendWord s .header (replyHeader s.latch.attention r) (restOf r.payload)
  | [], n :: rest, _ =>
    let s := { s with ret := { s.ret with notices := rest } }
    sendWord s .header (noticeHeader s.latch.attention n) (restOf n.payload)
  | [], [], t :: rest =>
    let s := { s with ret := { s.ret with taps := rest } }
    sendWord s .tap t none
  | [], [], [] => { s with ret := { s.ret with slotEnd := none, wire := none } }

/-- R160: the return direction goes on: the next word of the record in transfer, or the next choice. -/
def returnGoesOn (s : State) : State :=
  match s.ret.inTransfer with
  | some (w :: rest) => sendWord s .payload w (restOf rest)
  | some [] => sendNext { s with ret := { s.ret with inTransfer := none } }
  | none => sendNext s

/-- Whether anything waits to be sent. -/
def ReturnSender.hasWork (r : ReturnSender) : Bool :=
  !(r.replies.isEmpty && r.notices.isEmpty && r.taps.isEmpty)

/-- RETURN_WORD_SENT (R160): the word being sent has gone and the direction goes on; a free direction
begins with what has been offered since (log 25). -/
def execReturnWordSent (s : State) : Host.Outcome State Fault Refusal :=
  let s := settle s
  match s.ret.slotEnd with
  | some t => .next (returnGoesOn (s.reach t))
  | none => whenPossible s.ret.hasWork "RETURN_WORD_SENT" (returnGoesOn s)

/-! ## The board (R135, R189) -/

/-- PRESENCE_CHANGE (R189): the presence input of a lane is sensed continuously, in every state of the
part. -/
def execPresenceChange (wait : Nat) (l : LaneId) (present : Bool) (s : State) :
    Host.Outcome State Fault Refusal :=
  let s := if s.resetLow then s else s.pass wait
  .next (s.modLane l fun x => { x with port := { x.port with present := present } })

/-- R135: a disturbance leaves an item as the command says, its check code not computed again. -/
def corrupt (s : State) (item : Corruption) : State :=
  match item with
  | .curvePoint c k value agrees => s.setPoint c k ⟨value, agrees⟩
  | .ruleRecord r fields agrees => s.modRule r fun x => { x with fields := fields, codeOk := agrees }
  | .playlistEntry l i e agrees =>
    s.modLane l fun x => { x with playlist := x.playlist.set i ⟨e, agrees⟩ }

/-- STORE_CORRUPTION (R135). -/
def execStoreCorruption (wait : Nat) (item : Corruption) (s : State) :
    Host.Outcome State Fault Refusal :=
  fromOutside s wait fun s => corrupt (settle s) item

/-! ## Lane and rule events -/

/-- PORT_TRANSFER_COMPLETE (R184, R188): the word is strobed, the code lines take its line state, and a
pending word moves into transfer at once. -/
def Lane.strobe (now : Nat) (t : Transfer) (x : Lane) : Lane :=
  let p := { x.port with transfer := none, strobedLine := t.line }
  match p.pending with
  | some w => { x with port := moveToTransfer now x.config { p with pending := none } w }
  | none => { x with port := p }

/-- PORT_TRANSFER_COMPLETE (R184). -/
def execPortTransferComplete (l : LaneId) (s : State) : Host.Outcome State Fault Refusal :=
  match (s.lane l).port.transfer with
  | some t =>
    let s := s.reach t.strobeAt
    .next (s.modLane l (Lane.strobe s.now t))
  | none => .refused (.notPossible "PORT_TRANSFER_COMPLETE")

/-- RULE_DELAY_END (R99): a TRIGGERED rule's DELAY_COUNT has reached 0 and its attempt falls due. -/
def execRuleDelayEnd (r : RuleId) (s : State) : Host.Outcome State Fault Refusal :=
  whenPossible (s.rule r).delayEnds "RULE_DELAY_END" (s.modRule r endDelay)

end Sys2Proof.Machine
end

