-- ==== Sys2Proof/Machine/CommandUnit.lean ====
section
/-! DEFINITION. Machine/CommandUnit.lean: how a record is taken, judged and answered (09, R165 to R174),
and the commands of no other block: IDENTIFY, STATUS, SET_REPORTING, RESET, the unknown command, and the
placing of a blocked reply (R175 to R180). -/

namespace Sys2Proof.Machine

/-! ## Answers (R171, R174) -/

/-- What a command leaves: a status and a payload, or work that holds the unit (R173). -/
inductive Answer where
  | reply (status : Status) (payload : List Word)
  | working (job : Job)
  deriving DecidableEq, Repr

/-- A refused reply without payload (R171). -/
def refusedWith (status : Status) : Answer := .reply status []

/-- R174: a prepared reply joins the reply queue, frees its place and leaves the unit READY, or waits in
the BLOCKED unit while the queue holds 16 records. -/
def placeReply (s : State) (r : Reply) : State :=
  if s.ret.replies.length < Config.recordPlaces then
    { s with
      ret := { s.ret with replies := s.ret.replies ++ [r] }
      cmd := { s.cmd with queue := s.cmd.queue.tail, unit := .ready } }
  else
    { s with cmd := { s.cmd with
        queue := match s.cmd.queue with
          | [] => []
          | p :: rest => { p with state := .answered } :: rest
        unit := .blocked r } }

/-- R166: the unit takes up work that takes time: the record is IN_HAND and the unit HELD. -/
def holdUnit (s : State) (job : Job) : State :=
  { s with cmd := { s.cmd with
      queue := match s.cmd.queue with
        | [] => []
        | p :: rest => { p with state := .inHand } :: rest
      unit := .held job } }

/-- R166, R171: the answer to record `p`. -/
def answer (p : Place) (r : State × Answer) : State :=
  match r.2 with
  | .reply status payload => placeReply r.1 ⟨status, p.tag, p.code, payload⟩
  | .working job => holdUnit r.1 job

/-! ## Taking a record (R166, R167) -/

/-- R167: the refusal that every record meets first, if any: its mark, its code, its length. -/
def judge (p : Place) : Option Status :=
  match p.mark with
  | .corrupt => some .corrupt
  | .truncated => some .truncated
  | .complete =>
    match commandOf p.code with
    | none => some .unknownCommand
    | some c =>
      if c.lengths.1 ≤ p.payload.length ∧ p.payload.length ≤ c.lengths.2 then none
      else some .badLength

/-- R166: the record that the unit can take: READY, and the head of the queue is WAITING. -/
def headRecord (s : State) : Option Place :=
  match s.cmd.unit, s.cmd.queue with
  | .ready, p :: _ => if p.state = .waiting then some p else none
  | .ready, [] => none
  | .held _, _ => none
  | .blocked _, _ => none

/-- R166, R167: the Command Unit takes the record at the head of the queue, if `mine` says that the row
takes it; a record that fails a check of R167 is answered REFUSED, another is carried out. Ends of rules
that fell due before are taken first (log 9). -/
def takeRecord (mnemonic : String) (mine : Place → Bool) (run : Place → State → State × Answer)
    (s : State) : Host.Outcome State Fault Refusal :=
  match headRecord s with
  | some p =>
    whenPossible (mine p) mnemonic
      (match judge p with
        | some refusal => answer p (settle s, refusedWith refusal)
        | none => answer p (run p (settle s)))
  | none => .refused (.notPossible mnemonic)

/-- Whether a record's command code is that of a command. -/
def isCommand (c : Command) (p : Place) : Bool := commandOf p.code = some c

/-- BLOCKED_REPLY_PLACED (R174): a reply that waits joins the reply queue when a place is free. -/
def execBlockedReplyPlaced (s : State) : Host.Outcome State Fault Refusal :=
  match s.cmd.unit with
  | .blocked r =>
    whenPossible (decide (s.ret.replies.length < Config.recordPlaces)) "BLOCKED_REPLY_PLACED"
      (placeReply s r)
  | .ready => .refused (.notPossible "BLOCKED_REPLY_PLACED")
  | .held _ => .refused (.notPossible "BLOCKED_REPLY_PLACED")

/-- UNKNOWN_COMMAND_RECORD (R167): a closed record whose code is none of the 24 commands. -/
def execUnknownCommandRecord (s : State) : Host.Outcome State Fault Refusal :=
  takeRecord "UNKNOWN_COMMAND_RECORD" (fun p => commandOf p.code = none)
    (fun _ s => (s, refusedWith .unknownCommand)) s

/-! ## IDENTIFY, STATUS (R175, R176) -/

/-- R175: the seven words of IDENTIFY. -/
def identifyWords : List Word := [5624, 3, 24, 256, 16, 128, 536870912]

/-- IDENTIFY (R175). -/
def execIdentify (s : State) : Host.Outcome State Fault Refusal :=
  takeRecord "IDENTIFY" (isCommand .identify) (fun _ s => (s, .reply .done identifyWords)) s

/-- R176: the words of STATUS, in the order R176 lists its fields, one to a word (R190); the tap lane set
stands in the tap list's layout (log 16). Whether the write window is valid is 1 or 0: no table gives that
code (DESIGN CHOICE, log 45). -/
def statusWords (s : State) : List Word :=
  [ numberWord (linkStateCode s.link.state), s.link.currentCycle, numberWord s.link.silenceLimit,
    numberWord s.link.badWords, numberWord s.link.stray, numberWord s.link.badLane,
    numberWord s.link.cycleJumps, numberWord s.link.overrun,
    numberWord s.ret.mask.toNat, tapListWord s.ret.tapLanes,
    numberWord s.ret.noticesDropped, numberWord s.ret.tapsDropped,
    numberWord s.ret.replies.length, numberWord s.ret.notices.length,
    numberWord (latchStateCode s.latch.state),
    numberWord s.cmd.queue.length, numberWord (flagBit s.cmd.window.isSome),
    numberWord s.dir.fillQueue.length ] ++
  laneNumbers.map fun l => numberWord (laneStateCode (s.lane l).state)

/-- STATUS (R176). -/
def execStatus (s : State) : Host.Outcome State Fault Refusal :=
  takeRecord "STATUS" (isCommand .status) (fun _ s => (s, .reply .done (statusWords s))) s

/-! ## SET_REPORTING (R153, R177, R178) -/

/-- R177: the lanes of a tap list, each kept once at its first place; none if the count is above 4 or a
lane number above 23. -/
def tapLanesOf (w : Word) : Option (List LaneId) :=
  if field w 20 3 ≤ 4 then
    let named := (tapPlacesOf w).map fun n => toFin? n 24
    if named.all Option.isSome then some (named.filterMap id).eraseDups else none
  else none

/-- R153, R178: a new limit that the time since the latest mark has already reached expires the timer at
once, in UP. -/
def applySilenceLimit (s : State) (limit : Nat) : State :=
  let s := { s with link := { s.link with silenceLimit := limit } }
  if s.link.state = .up ∧ limit * 1000 ≤ s.now - s.link.lastMark then linkLost s else s

/-- R177, R178: a SET_REPORTING record. The three settings are replaced, and the new mask judges a
LINK_LOST notice that the new limit brings at once. -/
def runSetReporting (p : Place) (s : State) : State × Answer :=
  match tapLanesOf (param p.payload 2) with
  | none => (s, refusedWith .badValue)
  | some lanes =>
    let raw := (param p.payload 0).toNat
    let limit := max 10 (min raw 65535)
    let mask := BitVec.ofNat 7 (field (param p.payload 1) 0 7)
    let changed := raw != limit || lanes.length != (tapPlacesOf (param p.payload 2)).length
    let s := { s with ret := { s.ret with mask := mask, tapLanes := lanes } }
    (applySilenceLimit s limit,
      .reply (if changed then .adjusted else .done)
        [numberWord limit, numberWord mask.toNat, tapListWord lanes])

/-- SET_REPORTING (R177, R178). -/
def execSetReporting (s : State) : Host.Outcome State Fault Refusal :=
  takeRecord "SET_REPORTING" (isCommand .setReporting) runSetReporting s

/-! ## The soft reset (R13, R179, R180) -/

/-- R12, R13: the counters, history, live register and previous sensed code of a lane cleared. -/
def Lane.clearRecords (x : Lane) : Lane :=
  { x with counters := .zero, history := [], live := ⟨0, false, false⟩, prev := none }

/-- R7, R12, R183: a word waiting in the pending place is discarded. -/
def Lane.dropPending (x : Lane) : Lane := { x with port := { x.port with pending := none } }

/-- R13: a lane after a soft reset: OFF, its queue, fetch, positions, debt, counts and chain released. -/
def Lane.softReset (x : Lane) : Lane :=
  { x.releaseReplay.clearRecords.dropPending with
    state := .off, pacing := .stopped, counted := [], chain := [] }

/-- R110: a rule after a soft reset. -/
def Rule.softReset (r : Rule) : Rule :=
  { r with
    state := match r.state with
      | .vacant => .vacant
      | .loaded => .loaded
      | .armed => .loaded
      | .triggered => .loaded
      | .active => .loaded
      | .spent => .spent
    delayCount := 0
    durationCount := 0
    remaining := .count 0
    noise := 1
    ramp := 0
    activations := 0
    missed := 0
    applied := 0
    baseSeen := false
    attemptDue := false
    endDue := false
    late := false }

/-- R150: the Link Port after a soft reset: its counters 0. -/
def Link.softReset (k : Link) : Link :=
  { k with badWords := 0, stray := 0, badLane := 0, cycleJumps := 0, overrun := 0 }

/-- R159: the Return Sender after a soft reset. -/
def ReturnSender.softReset (r : ReturnSender) : ReturnSender :=
  { r with notices := [], taps := [], tapLanes := [], noticesDropped := 0, tapsDropped := 0 }

/-- R34: the directory after a soft reset: every IN_USE 0, all else kept. -/
def Directory.softReset (d : Directory) : Directory :=
  { d with blocks := Vector.ofFn fun b : BlockId => { d.blocks[b.val] with inUse := 0 } }

/-- R179: the soft reset, at every block at once. -/
def softReset (s : State) : State :=
  let s := s.mapLanes fun _ x => x.softReset
  let s := s.mapRules fun _ r => r.softReset
  { s with
    link := s.link.softReset
    ret := s.ret.softReset
    dir := s.dir.softReset
    latch := .reset
    cmd := { s.cmd with window := none } }

/-- RESET (R179, R180): its reply is prepared after the reset. -/
def execReset (s : State) : Host.Outcome State Fault Refusal :=
  takeRecord "RESET" (isCommand .reset) (fun _ s => (softReset s, .reply .done [])) s

/-! ## The latch (R145, R146) -/

/-- READ_LATCH (R145). -/
def execReadLatch (s : State) : Host.Outcome State Fault Refusal :=
  takeRecord "READ_LATCH" (isCommand .readLatch) (fun _ s => (s, .reply .done (latchPayload s.latch))) s

/-- CLEAR_LATCH (R146): the reply is filled first, then the latch is emptied and its counters zeroed. -/
def execClearLatch (s : State) : Host.Outcome State Fault Refusal :=
  takeRecord "CLEAR_LATCH" (isCommand .clearLatch)
    (fun _ s => ({ s with latch := .reset }, .reply .done (latchPayload s.latch))) s

end Sys2Proof.Machine
end

