-- ==== Sys2Proof/Machine/LaneCommands.lean ====
section
/-! DEFINITION. Machine/LaneCommands.lean: the commands of lanes, playlists and curves: CONFIG_LANE,
SET_PLAYLIST, START_LANES, STOP_LANES, RESET_LANE, READ_LANE, and the replacement of curve points (R1 to
R24, R45, R46, R73, R78). -/

namespace Sys2Proof.Machine

/-! ## CONFIG_LANE, SET_PLAYLIST (R2, R46) -/

/-- R2: a CONFIG_LANE record. An ADJUSTED reply carries the record as taken (log 17). -/
def runConfigLane (p : Place) (s : State) : State × Answer :=
  match toFin? p.index 24 with
  | none => (s, refusedWith .badIndex)
  | some l =>
    if (s.lane l).state = .off then
      match decodeConfig p.payload with
      | none => (s, refusedWith .badValue)
      | some (c, adjusted) =>
        (s.modLane l fun x => { x with config := c },
          if adjusted then .reply .adjusted (encodeConfig c) else .reply .done [])
    else (s, refusedWith .laneBusy)

/-- CONFIG_LANE (R2, R3). -/
def execConfigLane (s : State) : Host.Outcome State Fault Refusal :=
  takeRecord "CONFIG_LANE" (isCommand .configLane) runConfigLane s

/-- R46: an entry taken from its words, measured against its block if that is FILLING or READY. -/
def checkEntry (s : State) (n : Nat) (w : Word × Word × Word) : Option PlaylistEntry :=
  match decodeEntry n w.1 w.2.1 w.2.2 with
  | none => none
  | some e =>
    let b := s.block e.block
    if b.state = .vacant || (decide (e.column < b.columns) && decide (e.lastRow < b.rows)) then some e
    else none

/-- R46: the entries in order, or the number of the first one that fails (log 20). -/
def checkEntries (s : State) (n : Nat) : Nat → List (Word × Word × Word) → Except Nat (List PlaylistEntry)
  | _, [] => .ok []
  | k, w :: rest =>
    match checkEntry s n w with
    | none => .error k
    | some e =>
      match checkEntries s n (k + 1) rest with
      | .ok es => .ok (e :: es)
      | .error j => .error j

/-- R46: a SET_PLAYLIST record; a taken one replaces the whole playlist, each entry with a new check
code. -/
def runSetPlaylist (p : Place) (s : State) : State × Answer :=
  match toFin? p.index 24 with
  | none => (s, refusedWith .badIndex)
  | some l =>
    if p.payload.length % 3 ≠ 0 ∨ 48 < p.payload.length then (s, refusedWith .badLength)
    else if (s.lane l).state = .off then
      let words := entryWords p.payload
      match checkEntries s words.length 0 words with
      | .error k => (s, .reply .badValue [numberWord k])
      | .ok es =>
        (s.modLane l fun x => { x with playlist := es.map fun e => ⟨e, true⟩ }, .reply .done [])
    else (s, refusedWith .laneBusy)

/-- SET_PLAYLIST (R46). -/
def execSetPlaylist (s : State) : Host.Outcome State Fault Refusal :=
  takeRecord "SET_PLAYLIST" (isCommand .setPlaylist) runSetPlaylist s

/-! ## START_LANES (R4, R5) -/

/-- R4, R7: the lanes that a mask names, lowest first; none for an empty mask or a position above 23. -/
def maskLanes (mask : Word) : Option (List LaneId) :=
  if mask.toNat = 0 ∨ 16777216 ≤ mask.toNat then none
  else some (laneNumbers.filter fun l => mask.getLsbD l.val)

/-- R4: the checks on one lane, in order. -/
def startCheck (s : State) (l : LaneId) : Status :=
  let x := s.lane l
  if x.state ≠ .off then .laneBusy
  else if !x.port.present then .noPort
  else if x.config.source = .replay && x.playlist.isEmpty then .notReady
  else if x.config.source = .replay &&
      x.playlist.any fun e => (s.block e.entry.block).state != .ready then .notReady
  else .done

/-- R38: the distinct blocks that a playlist names. -/
def playlistBlocks (x : Lane) : List BlockId := (x.playlist.map fun e => e.entry.block).eraseDups

/-- R38: the blocks on which a lane that starts counts, whatever its SOURCE: every block its playlist
names. A VACANT descriptor holds no block, and its IN_USE stays 0 (R34, log 11). -/
def blocksToCount (s : State) (x : Lane) : List BlockId :=
  (playlistBlocks x).filter fun b => (s.block b).state != .vacant

/-- R5, R51: the lane as it enters PRIMED. -/
def Lane.prime (start : Word) (late : Bool) (blocks : List BlockId) (x : Lane) : Lane :=
  let y := x.startReplay
  { y with
    state := .primed
    startCycle := start
    late := late
    pacing := .stopped
    history := []
    prev := none
    gate := if x.config.gateSeed = 0 then 1 else x.config.gateSeed
    markCount := 0
    sentSinceStart := false
    counted := blocks }

/-- R5, R38, R94: one lane taken by START_LANES: it enters PRIMED, counts on its blocks, and triggers its
ARMED IMMEDIATE rules. -/
def primeLane (start : Word) (late : Bool) (s : State) (l : LaneId) : State :=
  let blocks := blocksToCount s (s.lane l)
  let s := addUse s blocks
  let s := s.modLane l (Lane.prime start late blocks)
  s.mapRules fun _ r => if r.fields.lane = l.val then judgeImmediate s r else r

/-- R4: a START_LANES record. Each lane is checked against the state at the take. -/
def runStartLanes (p : Place) (s : State) : State × Answer :=
  match maskLanes (param p.payload 0) with
  | none => (s, refusedWith .badValue)
  | some lanes =>
    let start := param p.payload 1
    let late := startReached s.link.currentCycle start
    let results := lanes.map (startCheck s)
    let taken := lanes.filter fun l => startCheck s l = .done
    let words := results.map fun r => numberWord r.code
    (taken.foldl (primeLane start late) s,
      .reply (if taken.isEmpty then results.headD .badValue else if late then .late else .done) words)

/-- START_LANES (R4, R5). -/
def execStartLanes (s : State) : Host.Outcome State Fault Refusal :=
  takeRecord "START_LANES" (isCommand .startLanes) runStartLanes s

/-! ## STOP_LANES (R7, R8) -/

/-- R7: one lane of STOP_LANES NOW. -/
def stopLaneNow (s : State) (l : LaneId) : State :=
  if (s.lane l).state.inPlay then (laneOff s l).modLane l Lane.dropPending else s

/-- R8: one lane of STOP_LANES DRAIN. -/
def stopLaneDrain (s : State) (l : LaneId) : State :=
  let x := s.lane l
  match x.state with
  | .running => if x.config.source = .replay then s.setLane l x.drain else stopLaneNow s l
  | .draining => s
  | .primed => stopLaneNow s l
  | .off => s
  | .halted => s

/-- R7: the result of one named lane: a HALTED lane stays HALTED with LANE_BUSY. -/
def stopResult (s : State) (l : LaneId) : Status :=
  if (s.lane l).state = .halted then .laneBusy else .done

/-- R7, R8: a STOP_LANES record whose mode is one of the two. -/
def runStop (stop : State → LaneId → State) (p : Place) (s : State) : State × Answer :=
  match maskLanes (param p.payload 0) with
  | none => (s, refusedWith .badValue)
  | some lanes =>
    let results := lanes.map (stopResult s)
    (lanes.foldl stop s,
      .reply (if results.contains .done then .done else .laneBusy)
        (results.map fun r => numberWord r.code))

/-- R169: STOP_LANES reads its mode first. -/
def stopMode (p : Place) : Nat := (param p.payload 1).toNat

/-- STOP_LANES with mode NOW (R7). A record refused before its mode can tell, or for its mode, is taken by
either row (log 4). -/
def execStopLanesNow (s : State) : Host.Outcome State Fault Refusal :=
  takeRecord "STOP_LANES_NOW"
    (fun p => isCommand .stopLanes p && ((judge p).isSome || stopMode p != 1))
    (fun p s => if stopMode p = 0 then runStop stopLaneNow p s else (s, refusedWith .badValue)) s

/-- STOP_LANES with mode DRAIN (R8). -/
def execStopLanesDrain (s : State) : Host.Outcome State Fault Refusal :=
  takeRecord "STOP_LANES_DRAIN"
    (fun p => isCommand .stopLanes p && ((judge p).isSome || stopMode p != 0))
    (fun p s => if stopMode p = 1 then runStop stopLaneDrain p s else (s, refusedWith .badValue)) s

/-! ## RESET_LANE, READ_LANE (R12, R24) -/

/-- R12: one lane reset: OFF from any state, its records cleared. -/
def resetOneLane (s : State) (l : LaneId) : State :=
  (laneOff s l).modLane l fun x => x.clearRecords.dropPending

/-- R12: a RESET_LANE record. -/
def runResetLane (p : Place) (s : State) : State × Answer :=
  match toFin? p.index 24 with
  | none => (s, refusedWith .badIndex)
  | some l => (resetOneLane s l, .reply .done [])

/-- RESET_LANE (R12). -/
def execResetLane (s : State) : Host.Outcome State Fault Refusal :=
  takeRecord "RESET_LANE" (isCommand .resetLane) runResetLane s

/-- R24; 10, READ_LANE reply: the 17 words of lane state, then the newest 46 words of history. -/
def readLaneWords (x : Lane) : List Word :=
  [ packWord
      [ (laneStateCode x.state, 0), (flagBit x.late, 3), (flagBit x.sentSinceStart, 4),
        (flagBit x.live.fresh, 5), (flagBit x.live.mark, 6), (flagBit x.prev.isSome, 7),
        (lineCode x.lastLine, 8), (x.history.length, 10) ],
    x.startCycle ] ++
  encodeConfig x.config ++
  [ numberWord x.counters.ticks, numberWord x.counters.stale, numberWord x.counters.superseded,
    numberWord x.counters.lostTicks, numberWord x.counters.underruns,
    numberWord x.counters.saturations, numberWord x.counters.portSuperseded,
    numberWord x.lastWord.toNat, signedWord x.live.value, signedWord (x.prev.getD 0),
    packWord [(x.fill, 0), (x.debt, 16)] ] ++
  (x.history.take 46).map fun w => numberWord w.toNat

/-- R24: a READ_LANE record. -/
def runReadLane (p : Place) (s : State) : State × Answer :=
  match toFin? p.index 24 with
  | none => (s, refusedWith .badIndex)
  | some l => (s, .reply .done (readLaneWords (s.lane l)))

/-- READ_LANE (R24). -/
def execReadLane (s : State) : Host.Outcome State Fault Refusal :=
  takeRecord "READ_LANE" (isCommand .readLane) runReadLane s

/-! ## The points of a curve (R78, R79) -/

/-- R78: one point replaced, with a new check code; there is no point beyond 64. -/
def replacePoint (c : CurveId) (k : Nat) (v : Word) (s : State) : State :=
  match toFin? k 65 with
  | some k => s.setPoint c k ⟨BitVec.ofNat 20 (field v 0 20), true⟩
  | none => s

/-- R79: points replaced one after another, from point `k` on. -/
def replacePoints (c : CurveId) : Nat → List Word → State → State
  | _, [], s => s
  | k, v :: rest, s => replacePoints c (k + 1) rest (replacePoint c k v s)

end Sys2Proof.Machine
end

