-- ==== Sys2Proof/Machine/TraceCommands.lean ====
section
/-! DEFINITION. Machine/TraceCommands.lean: the commands of the Trace Directory and of trace memory,
DEFINE_BLOCK, DELETE_BLOCK, READ_DIRECTORY, WRITE_TRACE, READ_TRACE, and the completions of the Command
Unit's trace accesses (R34 to R44). -/

namespace Sys2Proof.Machine

/-! ## DEFINE_BLOCK, DELETE_BLOCK (R35, R37) -/

/-- R35: the three numbers are those of a block: BASE a multiple of 16, ROWS above 0, COLUMNS 1 to 16,
and the block within trace memory. -/
def blockFits (base rows columns : Nat) : Bool :=
  base % 16 = 0 && 0 < rows && 1 ≤ columns && columns ≤ 16 && base + rows * columns ≤ Config.traceWords

/-- R35: whether an address of the new block lies in this FILLING or READY block. -/
def Block.overlaps (base words : Nat) (b : Block) : Bool :=
  b.state != .vacant && decide (b.base < base + words) && decide (base < b.base + b.words)

/-- R35, R36: a block is defined: FILLING, at the tail of the fill queue; an engine with no write in hand
starts on the head. -/
def defineBlock (s : State) (b : BlockId) (base rows columns : Nat) : State :=
  let s := s.setBlock b ⟨.filling, base, rows, columns, 0⟩
  let s := { s with dir := { s.dir with fillQueue := s.dir.fillQueue ++ [b] } }
  if s.dir.fillReq = .idle then fillNext s else s

/-- R35: a DEFINE_BLOCK record, checked in the order of R35. -/
def runDefineBlock (p : Place) (s : State) : State × Answer :=
  let base := (param p.payload 0).toNat
  let rows := (param p.payload 1).toNat
  let columns := (param p.payload 2).toNat
  match toFin? p.index 128 with
  | none => (s, refusedWith .badIndex)
  | some b =>
    if (s.block b).state ≠ .vacant then (s, refusedWith .blockBusy)
    else if !blockFits base rows columns then (s, refusedWith .badValue)
    else if s.dir.blocks.toList.any (Block.overlaps base (rows * columns)) then
      (s, refusedWith .overlap)
    else if Config.fillPlaces ≤ s.dir.fillQueue.length then (s, refusedWith .fillBusy)
    else (defineBlock s b base rows columns, .reply .done [])

/-- DEFINE_BLOCK (R35). -/
def execDefineBlock (s : State) : Host.Outcome State Fault Refusal :=
  takeRecord "DEFINE_BLOCK" (isCommand .defineBlock) runDefineBlock s

/-- R37: a deleted block's id leaves the fill queue; at its head the fill ends at once, and the write in
hand is discarded when it completes. -/
def Directory.dropFill (d : Directory) (b : BlockId) : Directory :=
  match d.fillQueue with
  | [] => d
  | h :: rest =>
    if h = b then
      { d with
        fillQueue := rest
        fillDone := 0
        fillReq := match d.fillReq with
          | .idle => .idle
          | .writing => .discarding
          | .discarding => .discarding }
    else { d with fillQueue := h :: rest.erase b }

/-- R37, R43: a window on the deleted block becomes invalid. -/
def windowWithout (b : BlockId) (w : Option Window) : Option Window :=
  match w with
  | none => none
  | some x => if x.block = b then none else some x

/-- R37: a DELETE_BLOCK record. -/
def runDeleteBlock (p : Place) (s : State) : State × Answer :=
  match toFin? p.index 128 with
  | none => (s, refusedWith .badIndex)
  | some b =>
    match (s.block b).state with
    | .vacant => (s, refusedWith .noBlock)
    | _ =>
      if 0 < (s.block b).inUse then (s, refusedWith .blockBusy)
      else
        let s := s.setBlock b .vacant
        ({ s with
            dir := s.dir.dropFill b
            cmd := { s.cmd with window := windowWithout b s.cmd.window } },
          .reply .done [])

/-- DELETE_BLOCK (R37). -/
def execDeleteBlock (s : State) : Host.Outcome State Fault Refusal :=
  takeRecord "DELETE_BLOCK" (isCommand .deleteBlock) runDeleteBlock s

/-! ## READ_DIRECTORY (R34) -/

/-- The three words of a descriptor (10, READ_DIRECTORY reply). -/
def blockWords (b : Block) : List Word :=
  [ packWord [(blockStateCode b.state, 0), (b.columns, 2), (b.inUse, 7)],
    numberWord b.base, numberWord b.rows ]

/-- The block ids, lowest first. -/
def blockNumbers : List BlockId := List.finRange 128

/-- The three words on the fill queue (10, READ_DIRECTORY reply). -/
def fillQueueWords (s : State) : List Word :=
  packWord ((s.dir.fillQueue.length, 0) :: (s.dir.fillQueue.map Fin.val).zip [3, 10, 17, 24]) ::
    match s.dir.fillQueue with
    | [] => [0, 0]
    | b :: _ => [numberWord s.dir.fillDone, numberWord (s.block b).fillGroups]

/-- R34: a READ_DIRECTORY record. A count that runs past id 127 is cut. -/
def runReadDirectory (p : Place) (s : State) : State × Answer :=
  let count := (param p.payload 0).toNat
  match toFin? p.index 128 with
  | none => (s, refusedWith .badIndex)
  | some first =>
    if 1 ≤ count ∧ count ≤ 16 then
      let blocks := (blockNumbers.drop first.val).take count
      (s, .reply (if blocks.length < count then .adjusted else .done)
        ((blocks.flatMap fun b => blockWords (s.block b)) ++ fillQueueWords s))
    else (s, refusedWith .badValue)

/-- READ_DIRECTORY (R34). -/
def execReadDirectory (s : State) : Host.Outcome State Fault Refusal :=
  takeRecord "READ_DIRECTORY" (isCommand .readDirectory) runReadDirectory s

/-! ## The walk of a window (R40, R41) -/

/-- R40: the pointer moves to the next cell in walk order, and wraps past the last one. -/
def Window.advance (w : Window) : Window :=
  match w.order with
  | .rowMajor =>
    if w.column < w.lastColumn then { w with column := w.column + 1 }
    else if w.row < w.lastRow then { w with row := w.row + 1, column := w.firstColumn }
    else { w with row := w.firstRow, column := w.firstColumn, wraps := w.wraps + 1 }
  | .columnMajor =>
    if w.row < w.lastRow then { w with row := w.row + 1 }
    else if w.column < w.lastColumn then { w with column := w.column + 1, row := w.firstRow }
    else { w with row := w.firstRow, column := w.firstColumn, wraps := w.wraps + 1 }

/-- R40: the address of the cell at the pointer. -/
def Window.address (b : Block) (w : Window) : Nat := b.base + w.row * b.columns + w.column

/-- R40: the addresses and stored words of a record's data words, and the window after them. -/
def walkWindow (b : Block) : Window → List Word → List (Nat × Word) × Window
  | w, [] => ([], w)
  | w, d :: rest =>
    let more := walkWindow b w.advance rest
    ((w.address b, sealTraceWord w.poison d) :: more.1, more.2)

/-- R41: a gathering goes on with the words that lie in its aligned group and are not yet in it; the word
that ends it starts the next. -/
def gatherFrom (current : List (Nat × Word)) : List (Nat × Word) → List (List (Nat × Word))
  | [] => [current]
  | c :: rest =>
    if current.all fun d => d.1 / 16 = c.1 / 16 && d.1 != c.1 then gatherFrom (current ++ [c]) rest
    else current :: gatherFrom [c] rest

/-- R41: the TMC writes of one record. -/
def gather : List (Nat × Word) → List (List (Nat × Word))
  | [] => []
  | c :: rest => gatherFrom [c] rest

/-! ## WRITE_TRACE (R39 to R43) -/

/-- R41: the Command Unit issues the write of one gathering, CLOSE-AFTER clear. -/
def issueWrite (s : State) (cells : List (Nat × Word)) : State :=
  issueRequest s .command (cells.map Prod.fst) (some (cells.map Prod.snd)) false

/-- R42: the payload of a WRITE_TRACE reply: words written, wrap count, pointer as row and column
(log 16). -/
def writeReplyWords (count : Nat) (w : Window) : List Word :=
  [numberWord count, numberWord w.wraps, numberWord w.row, numberWord w.column]

/-- R41 to R43: the data words of a record are written through the window, which is left with its pointer
after them; a record without data words is answered at once. -/
def writeThrough (s : State) (p : Place) (w : Window) (data : List Word) (status : Status) :
    State × Answer :=
  let walk := walkWindow (s.block w.block) w data
  let s := { s with cmd := { s.cmd with window := some walk.2 } }
  let payload := writeReplyWords data.length walk.2
  match gather walk.1 with
  | [] => (s, .reply status payload)
  | first :: rest =>
    (issueWrite s first, .working (.write (first :: rest) ⟨status, p.tag, p.code, payload⟩))

/-- R39: a START that is refused leaves the window invalid. -/
def refuseStart (s : State) (status : Status) : State × Answer :=
  ({ s with cmd := { s.cmd with window := none } }, refusedWith status)

/-- R39: the window of a START on block `b`, its ranges clamped to the block; none where a range is empty
after clamping. -/
def openWindow (id : BlockId) (b : Block) (firstRow lastRow firstColumn lastColumn : Nat)
    (order : WalkOrder) (poison : Bool) : Option Window :=
  let r0 := min firstRow (b.rows - 1)
  let r1 := min lastRow (b.rows - 1)
  let c0 := min firstColumn (b.columns - 1)
  let c1 := min lastColumn (b.columns - 1)
  if r0 ≤ r1 ∧ c0 ≤ c1 then some ⟨id, r0, r1, c0, c1, order, poison, r0, c0, 0⟩ else none

/-- ORDER by code (R39, R190). -/
def walkOrderOf : Nat → Option WalkOrder
  | 0 => some .rowMajor
  | 1 => some .columnMajor
  | _ => none

/-- R39: a WRITE_TRACE START record. -/
def runWriteStart (p : Place) (s : State) : State × Answer :=
  if p.payload.length < 6 then refuseStart s .badLength
  else
    match toFin? (param p.payload 0).toNat 128 with
    | none => refuseStart s .badIndex
    | some id =>
      let b := s.block id
      let firstRow := (param p.payload 1).toNat
      let lastRow := (param p.payload 2).toNat
      let firstColumn := (param p.payload 3).toNat
      let lastColumn := (param p.payload 4).toNat
      let flags := param p.payload 5
      match b.state with
      | .vacant => refuseStart s .noBlock
      | .filling => refuseStart s .notReady
      | .ready =>
        match walkOrderOf (field flags 0 2) with
        | none => refuseStart s .badValue
        | some order =>
          match openWindow id b firstRow lastRow firstColumn lastColumn order (field flags 8 1 = 1) with
          | none => refuseStart s .badValue
          | some w =>
            let clamped := decide (b.rows ≤ firstRow) || decide (b.rows ≤ lastRow) ||
              decide (b.columns ≤ firstColumn) || decide (b.columns ≤ lastColumn)
            writeThrough s p w (p.payload.drop 6) (if clamped then .adjusted else .done)

/-- R43: a WRITE_TRACE CONTINUE record, its wrap count from 0. -/
def runWriteContinue (p : Place) (s : State) : State × Answer :=
  match s.cmd.window with
  | none => (s, refusedWith .noWindow)
  | some w => writeThrough s p { w with wraps := 0 } p.payload .done

/-- WRITE_TRACE START (R39 to R42). A record refused before its form can tell, or for its form, is taken
by either row (log 4), and leaves the window as it was (R169). -/
def execWriteTraceStart (s : State) : Host.Outcome State Fault Refusal :=
  takeRecord "WRITE_TRACE_START"
    (fun p => isCommand .writeTrace p && ((judge p).isSome || p.index != 1))
    (fun p s => if p.index = 0 then runWriteStart p s else (s, refusedWith .badValue)) s

/-- WRITE_TRACE CONTINUE (R43). -/
def execWriteTraceContinue (s : State) : Host.Outcome State Fault Refusal :=
  takeRecord "WRITE_TRACE_CONTINUE"
    (fun p => isCommand .writeTrace p && ((judge p).isSome || p.index != 0))
    (fun p s => if p.index = 1 then runWriteContinue p s else (s, refusedWith .badValue)) s

/-- R63: patch truncation for a write of the held record: its window names the written block. -/
def reportWritten (s : State) (written : List Nat) : State :=
  match s.cmd.window with
  | some w => patchTruncate s w.block written
  | none => s

/-- TRACE_WRITE_COMPLETE (R41, R42): the write has changed its words; the written addresses are reported,
and the next write is issued or the reply is placed. -/
def execTraceWriteComplete (s : State) : Host.Outcome State Fault Refusal :=
  match s.cmd.unit, inFlight s .command with
  | .held (.write (_ :: rest) reply), some (g, a) =>
    let s := reportWritten (completeAccess (settle s) g a) a.request.addresses
    match rest with
    | [] => .next (placeReply s reply)
    | next :: _ => .next (holdUnit (issueWrite s next) (.write rest reply))
  | _, _ => .refused (.notPossible "TRACE_WRITE_COMPLETE")

/-! ## READ_TRACE (R44) -/

/-- R44: ascending addresses split into the reads of one aligned group each. -/
def readGroups : List Nat → List (List Nat)
  | [] => []
  | a :: rest =>
    match readGroups rest with
    | (b :: g) :: gs => if a / 16 = b / 16 then (a :: b :: g) :: gs else [a] :: (b :: g) :: gs
    | [] :: gs => [a] :: gs
    | [] => [[a]]

/-- R44: the Command Unit issues one read. -/
def issueRead (s : State) (addresses : List Nat) : State :=
  issueRequest s .command addresses none false

/-- R44: a READ_TRACE record. A count past the block's last word is cut. -/
def runReadTrace (p : Place) (s : State) : State × Answer :=
  let row := (param p.payload 0).toNat
  let column := (param p.payload 1).toNat
  let count := (param p.payload 2).toNat
  match toFin? p.index 128 with
  | none => (s, refusedWith .badIndex)
  | some id =>
    let b := s.block id
    match b.state with
    | .vacant => (s, refusedWith .noBlock)
    | .filling => (s, refusedWith .notReady)
    | .ready =>
      if row < b.rows ∧ column < b.columns ∧ 1 ≤ count ∧ count ≤ 63 then
        let first := row * b.columns + column
        let wanted := min count (b.words - first)
        let groups := readGroups ((List.range wanted).map fun i => b.base + first + i)
        (issueRead s (groups.headD []), .working (.read groups [] (decide (wanted < count)) false))
      else (s, refusedWith .badValue)

/-- READ_TRACE (R44). -/
def execReadTrace (s : State) : Host.Outcome State Fault Refusal :=
  takeRecord "READ_TRACE" (isCommand .readTrace) runReadTrace s

/-- R44: the addresses of returned words that fail their check. -/
def failingWords (m : Memory) (addresses : List Nat) : List Nat :=
  addresses.filter fun a => traceWordFails (m.read a)

/-- R44: the status of a READ_TRACE reply. -/
def readStatus (errors cut : Bool) : Status :=
  if errors then .doneErrors else if cut then .adjusted else .done

/-- TRACE_READ_COMPLETE (R44): the group's words are returned, each failing one reported, and the next
read is issued or the reply is placed. -/
def execTraceReadComplete (s : State) : Host.Outcome State Fault Refusal :=
  match s.cmd.unit, s.cmd.queue, inFlight s .command with
  | .held (.read (_ :: rest) got cut errors), p :: _, some (g, a) =>
    let s := completeAccess (settle s) g a
    let addresses := a.request.addresses
    let bad := failingWords s.mem addresses
    let s := bad.foldl (fun s a => report s (.traceRead p.tag a)) s
    let got := got ++ addresses.map s.mem.read
    let errors := errors || !bad.isEmpty
    match rest with
    | [] => .next (placeReply s ⟨readStatus errors cut, p.tag, p.code, got⟩)
    | next :: _ => .next (holdUnit (issueRead s next) (.read rest got cut errors))
  | _, _, _ => .refused (.notPossible "TRACE_READ_COMPLETE")

end Sys2Proof.Machine
end

