-- ==== Sys2Proof/Machine/RuleCommands.lean ====
section
/-! DEFINITION. Machine/RuleCommands.lean: the commands of the Rule Table: LOAD_RULE, CLEAR_RULE, ARM,
DISARM, FIRE, READ_RULE (R86 to R92, R98, R112). -/

namespace Sys2Proof.Machine

/-! ## LOAD_RULE, CLEAR_RULE (R89, R90) -/

/-- ARMED, TRIGGERED and ACTIVE: the states in which LOAD_RULE and CLEAR_RULE are refused. -/
def RuleState.busy : RuleState → Bool
  | .vacant => false
  | .loaded => false
  | .armed => true
  | .triggered => true
  | .active => true
  | .spent => false

/-- R89: a rule as LOAD_RULE leaves it: LOADED, a new check code, working values and counters cleared. -/
def Rule.loadedWith (f : RuleFields) : Rule := { Rule.vacant with state := .loaded, fields := f }

/-- R89: a LOAD_RULE record. An ADJUSTED reply carries the record as stored (log 17). -/
def runLoadRule (p : Place) (s : State) : State × Answer :=
  match toFin? p.index 256 with
  | none => (s, refusedWith .badIndex)
  | some i =>
    if (s.rule i).state.busy then (s, refusedWith .ruleBusy)
    else
      match decodeRule i.val p.payload with
      | none => (s, refusedWith .badValue)
      | some (f, adjusted) =>
        (s.setRule i (Rule.loadedWith f),
          if adjusted then .reply .adjusted (encodeRule f) else .reply .done [])

/-- LOAD_RULE (R89). -/
def execLoadRule (s : State) : Host.Outcome State Fault Refusal :=
  takeRecord "LOAD_RULE" (isCommand .loadRule) runLoadRule s

/-- R90: a CLEAR_RULE record. -/
def runClearRule (p : Place) (s : State) : State × Answer :=
  match toFin? p.index 256 with
  | none => (s, refusedWith .badIndex)
  | some i =>
    if (s.rule i).state.busy then (s, refusedWith .ruleBusy)
    else (s.setRule i .vacant, .reply .done [])

/-- CLEAR_RULE (R90). -/
def execClearRule (s : State) : Host.Outcome State Fault Refusal :=
  takeRecord "CLEAR_RULE" (isCommand .clearRule) runClearRule s

/-! ## Forms (R169) -/

/-- R169: ARM and DISARM read their form first: 0 RULE, 1 GROUP. -/
def armForm (p : Place) : Nat := (param p.payload 0).toNat

/-- The record of a command with a form that the row of one form takes: it is not the other form's. A
record refused before its form can tell, or for its form, is taken by either row (log 4). -/
def takesForm (c : Command) (other : Nat) (p : Place) : Bool :=
  isCommand c p && ((judge p).isSome || armForm p != other)

/-- A record whose form is `form` is carried out; another is refused BAD_VALUE (R169). -/
def withForm (form : Nat) (run : Place → State → State × Answer) (p : Place) (s : State) :
    State × Answer :=
  if armForm p = form then run p s else (s, refusedWith .badValue)

/-! ## ARM (R91) -/

/-- LOADED and SPENT: the states that ARM takes (R88). -/
def RuleState.armable : RuleState → Bool
  | .vacant => false
  | .loaded => true
  | .armed => false
  | .triggered => false
  | .active => false
  | .spent => true

/-- R91: whether a rule's AT_CYCLE number is already reached. -/
def lateRule (s : State) (r : Rule) : Bool := atCycleReached s.link.currentCycle r

/-- R91: a rule as ARM leaves it, before an IMMEDIATE trigger is judged; `late` says that its AT_CYCLE number
is already reached (R95). -/
def Rule.armed (late : Bool) (r : Rule) : Rule :=
  { r with
    state := .armed
    remaining := remainingOf r.fields.repeats
    delayCount := 0
    baseSeen := false
    attemptDue := false
    endDue := false
    late := late }

/-- R91, R94: arming one rule, an IMMEDIATE one triggered at once if its lane is in play. -/
def armRule (s : State) (r : Rule) : Rule := judgeImmediate s (r.armed (lateRule s r))

/-- R91: every rule that `chosen` names is armed; the reply carries their number. -/
def armAll (s : State) (chosen : RuleId → Bool) : State × Answer :=
  let rules := ruleNumbers.filter chosen
  (s.mapRules fun i r => if chosen i then armRule s r else r,
    .reply (if rules.any fun i => lateRule s (s.rule i) then .late else .done)
      [numberWord rules.length])

/-- R91: ARM with form RULE. -/
def runArmRule (p : Place) (s : State) : State × Answer :=
  match toFin? p.index 256 with
  | none => (s, refusedWith .badIndex)
  | some i =>
    if (s.rule i).state = .vacant then (s, refusedWith .badIndex)
    else if (s.rule i).state.busy then (s, refusedWith .ruleBusy)
    else armAll s fun j => j = i

/-- R91: ARM with form GROUP. -/
def runArmGroup (p : Place) (s : State) : State × Answer :=
  if p.index ≤ 15 then
    armAll s fun i => (s.rule i).fields.group = p.index && (s.rule i).state.armable
  else (s, refusedWith .badValue)

/-- ARM of a rule (R91). -/
def execArmRule (s : State) : Host.Outcome State Fault Refusal :=
  takeRecord "ARM_RULE" (takesForm .arm 1) (withForm 0 runArmRule) s

/-- ARM of a group (R91). -/
def execArmGroup (s : State) : Host.Outcome State Fault Refusal :=
  takeRecord "ARM_GROUP" (takesForm .arm 0) (withForm 1 runArmGroup) s

/-! ## DISARM (R92) -/

/-- R92: a rule as DISARM leaves it. -/
def Rule.disarmed (r : Rule) : Rule :=
  { r with
    state := .loaded
    delayCount := 0
    durationCount := 0
    baseSeen := false
    attemptDue := false
    endDue := false
    late := false }

/-- R92: every ARMED, TRIGGERED or ACTIVE rule that `chosen` names is disarmed and leaves its chain; the
reply carries their number. -/
def disarmAll (s : State) (chosen : RuleId → Bool) : State × Answer :=
  let hit : RuleId → Bool := fun i => chosen i && (s.rule i).state.busy
  let rules := ruleNumbers.filter hit
  let t := s.mapLanes fun _ x => { x with chain := x.chain.filter fun i => !hit i }
  (t.mapRules fun i r => if hit i then r.disarmed else r, .reply .done [numberWord rules.length])

/-- R92: DISARM with form RULE. -/
def runDisarmRule (p : Place) (s : State) : State × Answer :=
  match toFin? p.index 256 with
  | none => (s, refusedWith .badIndex)
  | some i =>
    if (s.rule i).state = .vacant then (s, refusedWith .badIndex)
    else disarmAll s fun j => j = i

/-- R92: DISARM with form GROUP. -/
def runDisarmGroup (p : Place) (s : State) : State × Answer :=
  if p.index ≤ 15 then disarmAll s fun i => (s.rule i).fields.group = p.index
  else (s, refusedWith .badValue)

/-- DISARM of a rule (R92). -/
def execDisarmRule (s : State) : Host.Outcome State Fault Refusal :=
  takeRecord "DISARM_RULE" (takesForm .disarm 1) (withForm 0 runDisarmRule) s

/-- DISARM of a group (R92). -/
def execDisarmGroup (s : State) : Host.Outcome State Fault Refusal :=
  takeRecord "DISARM_GROUP" (takesForm .disarm 0) (withForm 1 runDisarmGroup) s

/-! ## FIRE (R98) -/

/-- R98: whether a rule waits on this channel. -/
def onChannel (channel : Nat) (r : Rule) : Bool := r.fields.trigger = .onCommand channel

/-- R98: a FIRE record; the reply carries the number of rules that took the trigger. -/
def runFire (p : Place) (s : State) : State × Answer :=
  if p.index ≤ 7 then
    (offerTrigger s none (onChannel p.index),
      .reply .done
        [numberWord
          (ruleNumbers.filter fun i => canTake s (s.rule i) && onChannel p.index (s.rule i)).length])
  else (s, refusedWith .badIndex)

/-- FIRE (R98). -/
def execFire (s : State) : Host.Outcome State Fault Refusal :=
  takeRecord "FIRE" (isCommand .fire) runFire s

/-! ## READ_RULE (R112) -/

/-- R112: REMAINING as a word; UNLIMITED by a code that no rule gives (log 18). -/
def remainingWord : Remaining → Word
  | .count n => numberWord n
  | .unlimited => Config.remainingUnlimited

/-- R112: the place of an ACTIVE rule in its lane's chain (log 34). The chain is that of the LANE the record
holds: where a disturbance has changed LANE, the rule does not stand there, and its place is that chain's
length, or absent for a LANE above 23 (log 40). -/
def placeWords (s : State) (i : RuleId) : List Word :=
  let r := s.rule i
  match r.state, toFin? r.fields.lane 24 with
  | .active, some l => [numberWord ((s.lane l).chain.idxOf i)]
  | _, _ => []

/-- R112: the words of a READ_RULE reply: the record in the LOAD_RULE layout, the state, the working
values, the counters, and the place in the chain (R190). -/
def readRuleWords (s : State) (i : RuleId) : List Word :=
  let r := s.rule i
  encodeRule r.fields ++
  [ numberWord (ruleStateCode r.state), numberWord r.delayCount, numberWord r.durationCount,
    remainingWord r.remaining, numberWord r.noise.toNat, signedWord r.ramp,
    numberWord r.activations, numberWord r.missed, numberWord r.applied ] ++
  placeWords s i

/-- R112: a READ_RULE record. -/
def runReadRule (p : Place) (s : State) : State × Answer :=
  match toFin? p.index 256 with
  | none => (s, refusedWith .badIndex)
  | some i => (s, .reply .done (readRuleWords s i))

/-- READ_RULE (R112). -/
def execReadRule (s : State) : Host.Outcome State Fault Refusal :=
  takeRecord "READ_RULE" (isCommand .readRule) runReadRule s

end Sys2Proof.Machine
end

