-- ==== Sys2Proof/Machine/LaneEvents.lean ====
section
/-! DEFINITION. Machine/LaneEvents.lean: the events at which lanes tick and fetch and activations end, with
what the spec lets be taken within them: TIMED_TICK and CYCLE_MARK with a DISARM or an end within a tick
(R126), LOAD_CURVE with the ticks that read its curve half written (R79), and a soft reset before what an
event sends has arrived (R147, R164). -/

namespace Sys2Proof.Machine

/-! ## Within a tick (R126; log 23) -/

/-- R92: a DISARM record, whatever its form. -/
def runDisarm (p : Place) (s : State) : State × Answer :=
  if armForm p = 0 then runDisarmRule p s else withForm 1 runDisarmGroup p s

/-- R166: the Command Unit takes the record at the head of its queue within another event, if it is one of
command `c`. -/
def takeHead (c : Command) (run : Place → State → State × Answer) (s : State) : State :=
  match headRecord s with
  | some p =>
    if isCommand c p then
      match judge p with
      | some refusal => answer p (s, refusedWith refusal)
      | none => answer p (run p s)
    else s
  | none => s

/-- R126: one event taken within a tick. An event that cannot occur changes nothing. -/
def takeWithin (s : State) (e : TickEvent) : State :=
  match e with
  | .disarm => takeHead .disarm runDisarm s
  | .ruleEnd r =>
    if (s.rule r).state = .active && (s.rule r).endDue && (s.rule r).fields.unit = .cycles then
      endActivation s r
    else s

/-- R113, R126: one event taken after step 2 of a tick. A DISARM that would reach a rule attempted at this
tick comes before the attempt or after the tick's path, so it is not taken here. -/
def takeLate (attempted : List RuleId) (s : State) (e : TickEvent) : State :=
  let t := takeWithin s e
  if e = .disarm && attempted.any fun i => t.rule i != s.rule i then s else t

/-- The rules whose ends are taken within a tick. -/
def heldEnds (events : List TickEvent) : List RuleId :=
  events.filterMap fun e =>
    match e with
    | .disarm => none
    | .ruleEnd r => some r

/-- The course of a tick with what is taken within it: `tell` takes its errors, and `replaced n` is the part
once `n` points of a curve being loaded have been replaced. -/
def courseOf (tell : State → ErrorDetail → State) (replaced : Nat → State → State) (w : Within) : Course where
  takeEnds := settleBut (heldEnds (w.afterSource ++ w.afterTriggers))
  tell := tell
  afterSource s := w.afterSource.foldl takeWithin s
  afterTriggers attempted s := w.afterTriggers.foldl (takeLate attempted) s
  upper := replaced w.high

/-! ## A soft reset before what an event sends has arrived (R147, R164, R179; log 43) -/

/-- Whether the record at the head of the command queue is a RESET that the unit carries out. -/
def resetAtHead (s : State) : Bool :=
  match headRecord s with
  | some p => isCommand .reset p && (judge p).isNone
  | none => false

/-- The notices and TAP words of a Return Sender set aside. -/
def ReturnSender.quiet (r : ReturnSender) : ReturnSender :=
  { r with notices := [], taps := [], noticesDropped := 0, tapsDropped := 0 }

/-- An error told to the latch if it is one of those whose report has arrived. -/
def tellAmong (told : List ErrorDetail) (s : State) (e : ErrorDetail) : State :=
  if told.contains e then report s e else s

/-- R164, R179: what an event has sent to the Return Sender arrives, but for what `a` says has arrived before:
each record and word joins its queue, and what that event itself has dropped is counted. -/
def arrive (a : Arrived) (sent : ReturnSender) (s : State) : State :=
  let s := (sent.notices.drop a.notices).foldl (fun s n => offerNotice s n.kind n.payload) s
  let s := (sent.taps.drop a.taps).foldl offerTap s
  { s with ret := { s.ret with
      noticesDropped := min (s.ret.noticesDropped + sent.noticesDropped) Config.counterMax
      tapsDropped := min (s.ret.tapsDropped + sent.tapsDropped) Config.counterMax } }

/-- R147, R164: the RESET at the head is taken on what an event leaves, and then all arrives of what the event
has sent but had not arrived: the SOFT reports, the notices and TAP words, and a HARD report, which ended it;
its halt order finds its lane OFF. The descriptors are as of the detection (R136). -/
def resetThenArrive (a : Arrived) (late : List ErrorDetail) (s : State) : State :=
  let t := takeHead .reset (fun _ s => (softReset s, .reply .done [])) s
  let due := late.map (descriptorOf s)
  let t := (due.filter fun d => !d.isHard).foldl takeReport t
  (due.filter Descriptor.isHard).foldl takeReport (arrive a s.ret t)

/-- An event, `run`, that may find errors and send notices and TAP words, with the RESET at the head of the
command queue taken before all has arrived of it, where `reset` says so and one stands there. -/
def resetAmid (reset : Option Arrived) (run : (State → ErrorDetail → State) → State → TickEnd) (s : State) :
    State :=
  match reset with
  | none => (run report s).1
  | some a =>
    let quiet : State := { s with ret := s.ret.quiet }
    let found := (run (fun s _ => s) quiet).2
    let t := settle (run (tellAmong (found.take a.reports)) quiet).1
    if resetAtHead t then resetThenArrive a (found.drop a.reports) t else (run report s).1

/-- One tick of a lane with what is taken within it. -/
def tickWith (replaced : Nat → State → State) (w : Within) (s : State) (l : LaneId) : State :=
  replaced w.high
    (resetAmid w.reset (fun tell s => laneTick (courseOf tell replaced w) s l) (replaced w.low s))

/-! ## TIMED_TICK, CYCLE_MARK -/

/-- R14: the tick timer of a TIMED lane falls due and the lane ticks; the times stay on its grid. None
where the timer does not run. -/
def timedTick (replaced : Nat → State → State) (t : TickOf) (s : State) : Option State :=
  match (s.lane t.lane).pacing with
  | .timed next period =>
    some (tickWith replaced t.within
      ((s.reach next).modLane t.lane fun x => { x with pacing := .timed (next + period) period }) t.lane)
  | .stopped => none
  | .marks _ => none

/-- TIMED_TICK (R14, R16). -/
def execTimedTick (tick : TickOf) (s : State) : Host.Outcome State Fault Refusal :=
  match timedTick (fun _ s => s) tick s with
  | some t => .next t
  | none => .refused (.notPossible "TIMED_TICK")

/-- R151: the mark is checked for a jump, sets the cycle, and is taken in the order `order` names
(log 8). -/
def cycleMark (replaced : Nat → State → State) (number : Word) (order : List MarkTaker) (s : State) : State :=
  (markOrder order).foldl (takeMark (tickWith replaced) number)
    (linkTakesMark (checkJump (settle s) number) number)

/-- CYCLE_MARK (R151). -/
def execCycleMark (wait : Nat) (number : Word) (order : List MarkTaker) (s : State) :
    Host.Outcome State Fault Refusal :=
  fromOutside s wait (cycleMark (fun _ s => s) number order)

/-! ## FETCH_ISSUE (R52 to R55) -/

/-- R52: an error that a lane's reading of a playlist entry finds is reported. -/
def playlistFails (fetch : FetchOf) (s : State) (e : ErrorDetail) : State :=
  resetAmid fetch.reset (fun tell s => (tell s e, [e])) s

/-- FETCH_ISSUE (R52, R54, R55): a lane that wants a fetch reads the entry of its fetch position. An entry
that fails its check raises a HARD PLAYLIST_CHECK error; otherwise the fetch is issued if the free places
are at least its yield. -/
def execFetchIssue (fetch : FetchOf) (s : State) : Host.Outcome State Fault Refusal :=
  let s := settle s
  let x := s.lane fetch.lane
  match x.fetchWanted with
  | none => .refused (.notPossible "FETCH_ISSUE")
  | some p =>
    let failed : Host.Outcome State Fault Refusal :=
      .next (playlistFails fetch s (.playlistCheck fetch.lane p.entry))
    match x.playlist[p.entry]? with
    | none => failed
    | some e =>
      if entryPasses s e then
        let words := nextYield (s.block e.entry.block) e.entry p
        whenPossible (decide (words.length ≤ x.freePlaces)) "FETCH_ISSUE"
          (issueFetch s fetch.lane e.entry words)
      else failed

/-! ## RULE_DURATION_END -/

/-- RULE_DURATION_END (R105): an ACTIVE rule's DURATION_COUNT has reached 0 and its activation ends. -/
def execRuleDurationEnd (ending : EndOf) (s : State) : Host.Outcome State Fault Refusal :=
  whenPossible ((s.rule ending.rule).state = .active && (s.rule ending.rule).endDue) "RULE_DURATION_END"
    (resetAmid ending.reset (fun _ s => (endActivation s ending.rule, [])) s)

/-! ## LOAD_CURVE (R78, R79; log 22) -/

/-- R79: an event among the replacements of a curve load, `replaced n` being the part once `n` points have
been replaced. A tick whose timer does not run does not occur. -/
def takeAmong (replaced : Nat → State → State) (s : State) (e : CurveEvent) : State :=
  match e with
  | .tick t => (timedTick replaced t s).getD s
  | .mark number order => cycleMark replaced number order s

/-- R79: the points from `k` on are replaced one at a time, in payload order, with the events of `among` in
order. A tick replaces the points that its operand says have been replaced when it reads; a point once
replaced stays so, and all are replaced after the last event. -/
def replaceAmong (among : List CurveEvent) (c : CurveId) (k : Nat) (values : List Word) (s : State) : State :=
  let replaced (n : Nat) : State → State := replacePoints c k (values.take n)
  replacePoints c k values (among.foldl (takeAmong replaced) s)

/-- R78: a LOAD_CURVE record. Its reply is built after the last point, ADJUSTED where values for points
beyond 64 were not written. -/
def runLoadCurve (among : List CurveEvent) (p : Place) (s : State) : State × Answer :=
  match toFin? (field (param p.payload 0) 24 5) 16 with
  | none => (s, refusedWith .badIndex)
  | some c =>
    if p.index ≤ 64 then
      let kept := p.payload.take (65 - p.index)
      (replaceAmong among c p.index kept s,
        .reply (if kept.length < p.payload.length then .adjusted else .done) [numberWord kept.length])
    else (s, refusedWith .badValue)

/-- LOAD_CURVE (R78, R79, R173): carried out in the event in which it is taken, with the ticks that find
its curve half written. -/
def execLoadCurve (among : List CurveEvent) (s : State) : Host.Outcome State Fault Refusal :=
  takeRecord "LOAD_CURVE" (isCommand .loadCurve) (runLoadCurve among) s

end Sys2Proof.Machine
end

