-- ==== Sys2Proof/Machine/ResetPin.lean ====
section
/-! DEFINITION. Machine/ResetPin.lean: the two edges of RESET_N, and power-on (R13, R26, R33, R181,
R183). -/

namespace Sys2Proof.Machine

/-- R33: the addresses whose write is in flight when a hard reset abandons it. -/
def abandonedAddresses (s : State) : List Nat :=
  groupNumbers.flatMap fun g =>
    match (s.group g).access with
    | some a => match a.request.data with
      | some _ => a.request.addresses
      | none => []
    | none => []

/-- R26, R33: trace memory through a hard reset. A power-on leaves every word unknown; another hard reset
keeps the words but for those of abandoned writes, which become unknown (log 6). -/
def memoryAfterReset (powerOn : Bool) (s : State) : Memory :=
  if powerOn then ⟨[], s.mem.powerOns + 1⟩
  else s.mem.writeAll ((abandonedAddresses s).map fun a => (a, Config.abandonedWord s.freeCount a))

/-- HARD_RESET (R13): RESET_N goes low, or power is applied: every block enters its hard-reset state. The
presence inputs are sensed as they stand (R183). -/
def execHardReset (powerOn : Bool) (s : State) : Host.Outcome State Fault Refusal :=
  .next (State.hardReset (fun l => (s.lane l).port.present) (memoryAfterReset powerOn s) (s.freeCount + 1)
    s.pending)

/-- R13, R183: at the rising edge a lane port begins the transfer of its rest word. -/
def Lane.risingEdge (x : Lane) : Lane :=
  { x with port := { x.port with transfer := some .resetRest } }

/-- RESET_N_RISING_EDGE (R13, R32): each port begins the transfer of its rest word, and the times of the
refresh schedule run from now. -/
def execResetNRisingEdge (s : State) : Host.Outcome State Fault Refusal :=
  whenPossible s.resetLow "RESET_N_RISING_EDGE"
    ({ s with now := 0, resetLow := false }.mapLanes fun _ x => x.risingEdge)

end Sys2Proof.Machine
end

