-- ==== Sys2Proof/Machine/Dispatch.lean ====
section
/-! DEFINITION. Machine/Dispatch.lean: one arm per command. -/

namespace Sys2Proof.Machine

/-- The effect of a command on everything but the queue of commands. -/
def exec (i : Instr) (s : State) : Host.Outcome State Fault Refusal :=
  match i with
  | .hardReset powerOn => Sys2Proof.Machine.execHardReset powerOn s
  | .resetNRisingEdge => Sys2Proof.Machine.execResetNRisingEdge s
  | .cycleMark wait number order => Sys2Proof.Machine.execCycleMark wait number order s
  | .sample wait data => Sys2Proof.Machine.execSample wait data s
  | .header wait data => Sys2Proof.Machine.execHeader wait data s
  | .payload wait data => Sys2Proof.Machine.execPayload wait data s
  | .linkWordBad wait => Sys2Proof.Machine.execLinkWordBad wait s
  | .silenceTimerExpiry => Sys2Proof.Machine.execSilenceTimerExpiry s
  | .presenceChange wait l present => Sys2Proof.Machine.execPresenceChange wait l present s
  | .storeCorruption wait item => Sys2Proof.Machine.execStoreCorruption wait item s
  | .timedTick tick => Sys2Proof.Machine.execTimedTick tick s
  | .ruleDelayEnd r => Sys2Proof.Machine.execRuleDelayEnd r s
  | .ruleDurationEnd ending => Sys2Proof.Machine.execRuleDurationEnd ending s
  | .portTransferComplete l => Sys2Proof.Machine.execPortTransferComplete l s
  | .fetchIssue fetch => Sys2Proof.Machine.execFetchIssue fetch s
  | .tmcGrant => Sys2Proof.Machine.execTmcGrant s
  | .fetchComplete l => Sys2Proof.Machine.execFetchComplete l s
  | .voidedFetchComplete l => Sys2Proof.Machine.execVoidedFetchComplete l s
  | .fillWriteComplete => Sys2Proof.Machine.execFillWriteComplete s
  | .traceWriteComplete => Sys2Proof.Machine.execTraceWriteComplete s
  | .traceReadComplete => Sys2Proof.Machine.execTraceReadComplete s
  | .groupBusyEnd g => Sys2Proof.Machine.execGroupBusyEnd g s
  | .refreshDue g => Sys2Proof.Machine.execRefreshDue g s
  | .refreshStart g => Sys2Proof.Machine.execRefreshStart g s
  | .refreshEnd g => Sys2Proof.Machine.execRefreshEnd g s
  | .returnWordSent => Sys2Proof.Machine.execReturnWordSent s
  | .blockedReplyPlaced => Sys2Proof.Machine.execBlockedReplyPlaced s
  | .identify => Sys2Proof.Machine.execIdentify s
  | .status => Sys2Proof.Machine.execStatus s
  | .reset => Sys2Proof.Machine.execReset s
  | .setReporting => Sys2Proof.Machine.execSetReporting s
  | .configLane => Sys2Proof.Machine.execConfigLane s
  | .setPlaylist => Sys2Proof.Machine.execSetPlaylist s
  | .startLanes => Sys2Proof.Machine.execStartLanes s
  | .stopLanesNow => Sys2Proof.Machine.execStopLanesNow s
  | .stopLanesDrain => Sys2Proof.Machine.execStopLanesDrain s
  | .resetLane => Sys2Proof.Machine.execResetLane s
  | .readLane => Sys2Proof.Machine.execReadLane s
  | .loadCurve among => Sys2Proof.Machine.execLoadCurve among s
  | .defineBlock => Sys2Proof.Machine.execDefineBlock s
  | .deleteBlock => Sys2Proof.Machine.execDeleteBlock s
  | .readDirectory => Sys2Proof.Machine.execReadDirectory s
  | .writeTraceStart => Sys2Proof.Machine.execWriteTraceStart s
  | .writeTraceContinue => Sys2Proof.Machine.execWriteTraceContinue s
  | .readTrace => Sys2Proof.Machine.execReadTrace s
  | .loadRule => Sys2Proof.Machine.execLoadRule s
  | .clearRule => Sys2Proof.Machine.execClearRule s
  | .armRule => Sys2Proof.Machine.execArmRule s
  | .armGroup => Sys2Proof.Machine.execArmGroup s
  | .disarmRule => Sys2Proof.Machine.execDisarmRule s
  | .disarmGroup => Sys2Proof.Machine.execDisarmGroup s
  | .fire => Sys2Proof.Machine.execFire s
  | .readRule => Sys2Proof.Machine.execReadRule s
  | .readLatch => Sys2Proof.Machine.execReadLatch s
  | .clearLatch => Sys2Proof.Machine.execClearLatch s
  | .unknownCommandRecord => Sys2Proof.Machine.execUnknownCommandRecord s

end Sys2Proof.Machine
end

