-- ==== Sys2Proof/Safety.lean ====
section
/-! DEFINITION. Safety.lean: the terms in which claims speak: what an event may touch, a record ready to be
carried out, what a reply's placing leaves, and the bounds that a sound state keeps. -/

namespace Sys2Proof.Machine

/-! ## Frames -/

/-- Everything that no tick, mark, halt, report or end of a rule touches is the same in two states: the
Link Port, the Command Unit, the curves, the TMC, trace memory, time, and the queue of commands. -/
structure TickFrame (s t : State) : Prop where
  now : t.now = s.now
  resetLow : t.resetLow = s.resetLow
  link : t.link = s.link
  cmd : t.cmd = s.cmd
  curves : t.curves = s.curves
  tmc : t.tmc = s.tmc
  mem : t.mem = s.mem
  freeCount : t.freeCount = s.freeCount
  pending : t.pending = s.pending

/-! ## Records and replies -/

/-- The record `p` stands WAITING at the head of the command queue of a READY unit, before `rest`
(R166). -/
abbrev Headed (s : State) (p : Place) (rest : List Place) : Prop :=
  s.cmd.unit = .ready ∧ s.cmd.queue = p :: rest ∧ p.state = .waiting

/-- The record `p` is a COMPLETE record of command `c` with a payload of an allowed length: it meets no
refusal of R167. -/
abbrev CarriedOut (c : Command) (p : Place) : Prop :=
  p.mark = .complete ∧ commandOf p.code = some c ∧
    c.lengths.1 ≤ p.payload.length ∧ p.payload.length ≤ c.lengths.2

/-- What stands after the reply `r` to the record `p` has been tried (R174): placed, with its
command-queue place freed and the unit READY; or, with 16 replies queued, waiting in the BLOCKED unit. -/
def replied (s : State) (p : Place) (rest : List Place) (r : Reply) : State :=
  if s.ret.replies.length < 16 then
    { s with
      ret := { s.ret with replies := s.ret.replies ++ [r] }
      cmd := { s.cmd with queue := rest, unit := .ready } }
  else
    { s with
      cmd := { s.cmd with queue := { p with state := .answered } :: rest, unit := .blocked r } }

/-- The record `p` is in hand and the unit HELD on `job` (R166, R173). -/
def heldOn (s : State) (p : Place) (rest : List Place) (job : Job) : State :=
  { s with cmd := { s.cmd with queue := { p with state := .inHand } :: rest, unit := .held job } }

/-! ## Bounds -/

/-- The queues hold no more than their places: 8 records (R165), 16 replies, 16 notices and 32 TAP words
(R159). -/
abbrev State.queuesFit (s : State) : Prop :=
  s.cmd.queue.length ≤ 8 ∧ s.ret.replies.length ≤ 16 ∧ s.ret.notices.length ≤ 16 ∧
    s.ret.taps.length ≤ 32

/-- A lane holds no more than its places: 64 words of history (R23), 8 rules in its chain (R104), 48 words
queued or reserved (R49), and a debt of at most 65,535 (R62). -/
abbrev Lane.fits (x : Lane) : Prop :=
  x.history.length ≤ 64 ∧ x.chain.length ≤ 8 ∧ x.fill + x.reserved ≤ 48 ∧ x.debt ≤ 65535

/-- Every lane fits. -/
abbrev State.lanesFit (s : State) : Prop := ∀ l, (s.lane l).fits

/-! ## Records in range -/

/-- A configuration record that CONFIG_LANE would take as it is: every field in its range (R1), REST_WORD
within the word length (R2), and the tick period longer than the word time (R3). -/
abbrev LaneConfig.valid (c : LaneConfig) : Prop :=
  codeMin ≤ c.constantCode ∧ c.constantCode ≤ codeMax ∧ 10 ≤ c.divisor ∧ c.divisor ≤ 65535 ∧
    1 ≤ c.cycleDivider ∧ c.cycleDivider ≤ 64 ∧ c.portDivider ≤ 255 ∧
    c.restWord.toNat < 2 ^ c.wordLength.bits ∧ c.gateSeed ≠ 0 ∧
    wordTime c.portKind c.wordLength c.portDivider < c.divisor * 100

end Sys2Proof.Machine

namespace Sys2Proof

/-- No record of the Command Unit is taken within the tick: no DISARM (R126) and no RESET (R147). -/
abbrev Within.takesNoRecord (w : Within) : Prop :=
  w.reset = none ∧ .disarm ∉ w.afterSource ∧ .disarm ∉ w.afterTriggers

/-- An action with its parameters in their ranges (R116). -/
def Action.valid : Action → Prop
  | .stuck v => codeMin ≤ v ∧ v ≤ codeMax
  | .offset d => codeMin ≤ d ∧ d ≤ codeMax
  | .gain g d => -32768 ≤ g ∧ g ≤ 32767 ∧ codeMin ≤ d ∧ d ≤ codeMax
  | .noise a seed => a ≤ 8388607 ∧ seed ≤ 8388607
  | .ramp s limit => codeMin ≤ s ∧ s ≤ codeMax ∧ limit ≤ 8388607
  | .clamp lo hi => codeMin ≤ lo ∧ lo ≤ hi ∧ hi ≤ codeMax
  | .invert => True
  | .force _ _ => True
  | .flip _ => True
  | .codeStuck _ => True
  | .orderSwap => True
  | .drop => True
  | .freeze => True
  | .delay n => 1 ≤ n ∧ n ≤ 64
  | .line st => st ≠ .normal
  | .checkBad => True
  | .seqHold => True
  | .seqJump k => 1 ≤ k ∧ k ≤ 14

/-- A trigger in range in the rule `own` (R86, R89). -/
def Trigger.valid (own : Nat) : Trigger → Prop
  | .immediate => True
  | .atCycle _ => True
  | .onMark none => True
  | .onMark (some tag) => tag < 16
  | .onLevel t _ => codeMin ≤ t ∧ t ≤ codeMax
  | .onRule r _ => r.val ≠ own
  | .onCommand channel => channel < 8

/-- A rule record that LOAD_RULE would take at `own` as it is (R89). -/
def RuleFields.valid (own : Nat) (f : RuleFields) : Prop :=
  f.fits = true ∧ f.lane < 24 ∧ f.watch < 24 ∧ f.action.valid ∧ f.trigger.valid own ∧
    (f.action = .freeze → f.intermittency = 0)

end Sys2Proof

namespace Sys2Proof.Machine

/-! ## Rows of the Command Unit -/

/-- The command that a row of the Command Unit carries out; none for a row that takes no record, and for
UNKNOWN_COMMAND_RECORD. -/
def managementRow : Instr → Option Command
  | .identify => some .identify
  | .status => some .status
  | .reset => some .reset
  | .setReporting => some .setReporting
  | .configLane => some .configLane
  | .setPlaylist => some .setPlaylist
  | .startLanes => some .startLanes
  | .stopLanesNow => some .stopLanes
  | .stopLanesDrain => some .stopLanes
  | .resetLane => some .resetLane
  | .readLane => some .readLane
  | .loadCurve _ => some .loadCurve
  | .defineBlock => some .defineBlock
  | .deleteBlock => some .deleteBlock
  | .readDirectory => some .readDirectory
  | .writeTraceStart => some .writeTrace
  | .writeTraceContinue => some .writeTrace
  | .readTrace => some .readTrace
  | .loadRule => some .loadRule
  | .clearRule => some .clearRule
  | .armRule => some .arm
  | .armGroup => some .arm
  | .disarmRule => some .disarm
  | .disarmGroup => some .disarm
  | .fire => some .fire
  | .readRule => some .readRule
  | .readLatch => some .readLatch
  | .clearLatch => some .clearLatch
  | .unknownCommandRecord => none
  | .hardReset _ => none
  | .resetNRisingEdge => none
  | .cycleMark _ _ _ => none
  | .sample _ _ => none
  | .header _ _ => none
  | .payload _ _ => none
  | .linkWordBad _ => none
  | .silenceTimerExpiry => none
  | .presenceChange _ _ _ => none
  | .storeCorruption _ _ => none
  | .timedTick _ => none
  | .ruleDelayEnd _ => none
  | .ruleDurationEnd _ => none
  | .portTransferComplete _ => none
  | .fetchIssue _ => none
  | .tmcGrant => none
  | .fetchComplete _ => none
  | .voidedFetchComplete _ => none
  | .fillWriteComplete => none
  | .traceWriteComplete => none
  | .traceReadComplete => none
  | .groupBusyEnd _ => none
  | .refreshDue _ => none
  | .refreshStart _ => none
  | .refreshEnd _ => none
  | .returnWordSent => none
  | .blockedReplyPlaced => none

end Sys2Proof.Machine
end

