-- ==== Sys2Proof/Certificates/Slice0/Obligations.lean ====
section
/-! DEFINITION. Certificates/Slice0/Obligations.lean: the statements for the provers. The record at the
head of the command queue is `p` before `rest`; ends of rules that have fallen due are taken before a
record is (`settle`, log 9). -/

open Sys2Proof Sys2Proof.Machine

/-! ## The whole part -/

/-- A step takes the command at the front of the queue of commands; with an empty queue the part idles
(log 1: the model's choice). -/
def Obligations.StepTakesFrontCommand : Prop :=
  ∀ s : State,
    (∀ c rest, s.pending = c :: rest → step s = exec c { s with pending := rest }) ∧
    (s.pending = [] → step s = .next s)

/-- Trace memory keeps its canonical form at every step, from every state that has it. -/
def Obligations.MemoryFormKeptByEveryStep : Prop :=
  ∀ s t : State, s.mem.wf = true → step s = .next t → t.mem.wf = true

/-- The command queue, the reply queue, the notice queue and the tap queue keep within their places at
every step (R159, R165). -/
def Obligations.QueuesKeepWithinTheirPlaces : Prop :=
  ∀ s t : State, s.queuesFit → step s = .next t → t.queuesFit

/-- Every lane's history, chain, replay queue with its reserved places, and debt keep within their bounds
at every step (R23, R49, R62, R104). -/
def Obligations.LanesKeepWithinTheirBounds : Prop :=
  ∀ s t : State, s.lanesFit → step s = .next t → t.lanesFit

/-- The state after reset meets the three invariants. -/
def Obligations.ResetMeetsTheInvariants : Prop :=
  State.reset.mem.wf = true ∧ State.reset.queuesFit ∧ State.reset.lanesFit

/-- A command other than a hard reset changes trace memory only where an access that carries data is in
flight (R26, R31, R36, R41). -/
def Obligations.OnlyWritesInFlightChangeTraceMemory : Prop :=
  ∀ (c : Instr) (s t : State), exec c s = .next t → (∀ powerOn, c ≠ .hardReset powerOn) →
    (∀ g a, (s.group g).access = some a → a.request.data = none) → t.mem = s.mem

/-- A configuration record in range, sent in the CONFIG_LANE layout, is taken as it was, unadjusted
(R1 to R3, R190). -/
def Obligations.ConfigLayoutRoundTrip : Prop :=
  ∀ c : LaneConfig, c.valid → decodeConfig (encodeConfig c) = some (c, false)

/-- A rule record in range, sent in the LOAD_RULE layout, is taken as it was, unadjusted (R86, R89, R116,
R190; NOTIFY's code is the model's, log 15). -/
def Obligations.RuleLayoutRoundTrip : Prop :=
  ∀ (own : RuleId) (f : RuleFields), f.valid own.val →
    decodeRule own.val (encodeRule f) = some (f, false)

/-! ## The reset pin -/

/-- HARD_RESET puts every block into its hard-reset state (R13, R33, R34, R49, R73, R110, R139, R150, R159,
R181, R183), and without a power-on every word of trace memory outside abandoned writes is kept. A lane is
OFF with the reset configuration of R1, its records clear, its hold and sent-since-start flags clear, and its
port idle until the rising edge of RESET_N, with SEQ_COUNT 15 and its presence input as sensed. -/
def Obligations.HardResetState : Prop :=
  ∀ (powerOn : Bool) (s : State), ∃ t, exec (.hardReset powerOn) s = .next t ∧
    t.resetLow = true ∧
    (∀ l, t.lane l =
      { config :=
          { source := .constant, constantCode := 0, timing := .timed, divisor := 1000, cycleDivider := 1
            wordLength := .w16, bitOrder := .msbFirst, portKind := .level, portDivider := 4
            restWord := 32768, fallback := .hold, curve := none, underrun := .slip, gateSeed := 1 }
        state := .off
        startCycle := 0
        late := false
        pacing := .stopped
        markCount := 0
        live := ⟨0, false, false⟩
        lastWord := 32768
        lastLine := .normal
        sentSinceStart := false
        prev := none
        history := []
        gate := 1
        counters := ⟨0, 0, 0, 0, 0, 0, 0⟩
        playlist := []
        fetchPos := .none
        queue := []
        fetch := none
        debt := 0
        counted := []
        chain := []
        port :=
          { transfer := none, pending := none, seqCount := 15, strobedLine := .normal
            present := (s.lane l).port.present } }) ∧
    (∀ r, t.rule r = ⟨.vacant, ⟨0, 0, 0, 0, .stuck 0, .immediate, .ticks, 0, 0, 0, 0, true⟩, true, 0, 0,
      .count 0, 1, 0, 0, 0, 0, false, false, false, false⟩) ∧
    (∀ b, t.block b = ⟨.vacant, 0, 0, 0, 0⟩) ∧ t.dir.fillQueue = [] ∧ t.dir.fillReq = .idle ∧
    t.dir.fillDone = 0 ∧
    (∀ c k, t.point c k = ⟨BitVec.ofNat 20 (min (k.val * 16384) 1048575), true⟩) ∧
    t.tmc.requests = [] ∧
    (∀ g, (t.group g).access = none ∧ (t.group g).busyUntil = none ∧ (t.group g).refreshUntil = none ∧
      (t.group g).refreshWaiting = false ∧ (t.group g).refreshCount = 0 ∧
      ∀ b : BankId, (t.group g).openRows[b.val] = none) ∧
    t.link = ⟨.waiting, 0, 1000, 0, .idle, 0, 0, 0, 0, 0⟩ ∧
    t.ret = ⟨[], [], [], [], 127, 0, 0, none, none, none⟩ ∧
    t.cmd = ⟨[], .ready, none⟩ ∧ t.latch = ⟨.empty, 0, 0⟩ ∧ t.pending = s.pending ∧
    (powerOn = false → ∀ a,
      (∀ g x, (s.group g).access = some x → x.request.data.isSome → a ∉ x.request.addresses) →
        t.mem.read a = s.mem.read a)

/-- At the rising edge each port begins the transfer of its rest word and time runs from 0 (R13, R183);
from any state, a power-on and the rising edge give the reset state, with the presence inputs as they
stand (log 5: State.reset itself presumes none). While RESET_N is low the part takes no word, no mark and
no disturbance (log 26: the model's reading). -/
def Obligations.RisingEdgeStartsThePart : Prop :=
  (∀ s : State, s.resetLow = true →
    ∃ t, exec .resetNRisingEdge s = .next t ∧ t.now = 0 ∧ t.resetLow = false ∧
      (∀ l, t.lane l = { s.lane l with port := { (s.lane l).port with
        transfer := some ⟨true :: List.replicate 15 false, 100, .normal, 1800⟩ } }) ∧
      t = { s with now := 0, resetLow := false, lanes := t.lanes }) ∧
  (∀ s t : State, exec (.hardReset true) s = .next t →
    exec .resetNRisingEdge t = .next { State.reset with
      lanes := Vector.ofFn fun l => Lane.afterReset (s.lane l).port.present
      mem := ⟨[], s.mem.powerOns + 1⟩
      freeCount := s.freeCount + 1
      pending := s.pending }) ∧
  (∀ (s : State) (wait : Nat) (data : Word), s.resetLow = true →
    (∀ order, exec (.cycleMark wait data order) s = .next s) ∧
    exec (.sample wait data) s = .next s ∧ exec (.header wait data) s = .next s ∧
    exec (.payload wait data) s = .next s ∧ exec (.linkWordBad wait) s = .next s ∧
    ∀ item, exec (.storeCorruption wait item) s = .next s)

/-! ## The cycle link, inbound -/

/-- A cycle mark becomes the current cycle, brings the link UP and restarts the silence timer; a jump in UP
and LOST is counted and offered as CYCLE_JUMP with the number expected and the number taken (R151, R152).
The Rule Table and every lane then take it once, in the order the command names (log 8). A PRIMED lane that
is late, or whose start the mark reaches (exactly 2³¹ ahead too, log 44), enters RUNNING and takes its first
tick there (R6, R14, R15); a
CYCLE lane counts the mark and ticks at each multiple of CYCLE_DIVIDER (R15); another lane does nothing. The
Rule Table triggers the ARMED AT_CYCLE rules that the mark reaches, or that were armed with their number
already reached (log 46), in a lane in play, and counts it in the
CYCLES delays and durations of the other rules (R95, R99, R100), those that a tick at this mark has just
triggered or activated among them (log 39); ends that fell due before are taken first, ends that it brings
later (log 9, log 38). The curves, the TMC and trace memory stay as they are, and so does the rest of the
Link Port and the Command Unit where no record is taken within a tick (log 23, log 43). -/
def Obligations.CycleMarkMovesTheLink : Prop :=
  (∀ (wait : Nat) (number : Word) (order : List MarkTaker) (s : State), s.resetLow = false →
    let u := settle (s.pass wait)
    let link : Link := { s.link with
      state := .up
      currentCycle := number
      lastMark := s.now + wait
      cycleJumps :=
        if s.link.state ≠ .waiting ∧ number ≠ s.link.currentCycle + 1 then countUp s.link.cycleJumps
        else s.link.cycleJumps }
    let marked : State :=
      if s.link.state ≠ .waiting ∧ number ≠ s.link.currentCycle + 1 then
        { offerNotice u .cycleJump [s.link.currentCycle + 1, number] with link := link }
      else { u with link := link }
    ∃ t, exec (.cycleMark wait number order) s = .next t ∧ t.now = s.now + wait ∧
      t = (markOrder order).foldl (takeMark (tickWith fun _ v => v) number) marked ∧
      ((∀ l w, MarkTaker.lane l w ∈ order → w.takesNoRecord) → t.link = link ∧ t.cmd = s.cmd) ∧
      t.curves = s.curves ∧ t.tmc = s.tmc ∧ t.mem = s.mem ∧
      t.resetLow = false ∧ t.freeCount = s.freeCount ∧ t.pending = s.pending) ∧
  (∀ order : List MarkTaker,
    let takers := (markOrder order).map MarkTaker.taker
    takers.Nodup ∧ (∀ x, x ∈ takers) ∧
      ((order.map MarkTaker.taker).Nodup → order <+: markOrder order)) ∧
  (∀ (tick : Within → State → LaneId → State) (number : Word) (s : State) (l : LaneId) (w : Within),
    let x := s.lane l
    let t := takeMark tick number s (.lane l w)
    (x.state = .primed →
      (x.late = true ∨ (number - x.startCycle).toNat ≤ 2 ^ 31 →
        (x.config.timing = .timed →
          t = tick w (s.setLane l { x with
            state := .running
            pacing := .timed (s.now + x.config.divisor * 100) (x.config.divisor * 100) }) l) ∧
        (x.config.timing = .cycle →
          t = tick w (s.setLane l { x with
            state := .running
            pacing := .marks x.config.cycleDivider
            markCount := 0 }) l)) ∧
      (x.late = false → 2 ^ 31 < (number - x.startCycle).toNat → t = s)) ∧
    (x.state ≠ .primed →
      (∀ k, x.pacing = .marks k →
        let counted := s.setLane l { x with markCount := x.markCount + 1 }
        ((x.markCount + 1) % k = 0 → t = tick w counted l) ∧
        ((x.markCount + 1) % k ≠ 0 → t = counted)) ∧
      ((∀ k, x.pacing ≠ .marks k) → t = s))) ∧
  ∀ (tick : Within → State → LaneId → State) (number : Word) (s : State),
    let u := settle s
    let t := takeMark tick number s .ruleTable
    t = { u with rules := t.rules } ∧
    ∀ r,
      let x := u.rule r
      let reached : Prop := x.state = .armed ∧ laneInPlay u x.fields.lane = true ∧
        ∃ n, x.fields.trigger = .atCycle n ∧ (x.late = true ∨ (number - n).toNat < 2 ^ 31)
      let delays : Prop := x.fields.unit = .cycles ∧ x.state = .triggered ∧ 0 < x.delayCount
      let lasts : Prop := x.fields.unit = .cycles ∧ x.state = .active ∧ 0 < x.durationCount
      (reached → t.rule r = { x with
        state := .triggered
        delayCount := x.fields.delay
        baseSeen := false
        attemptDue := decide (x.fields.delay = 0)
        late := false }) ∧
      (delays → t.rule r = { x with delayCount := x.delayCount - 1 }) ∧
      (lasts → t.rule r = { x with
        durationCount := x.durationCount - 1
        endDue := decide (x.durationCount = 1) }) ∧
      (¬reached → ¬delays → ¬lasts → t.rule r = x)

/-- A SAMPLE reaches the live holding register of the lane it names, in every lane and link state, and
otherwise is counted in BAD_LANE; it touches nothing else, no record being assembled among them, and its mark
carries tag 0 when a tick presents it (R18, R154). -/
def Obligations.SampleReachesItsLane : Prop :=
  (∀ (wait : Nat) (data : Word) (s : State), s.resetLow = false →
    (∀ l : LaneId, data.toNat / 2 ^ 26 = l.val →
      exec (.sample wait data) s = .next ((s.pass wait).modLane l fun x =>
        { x with
          live :=
            { value := if data.getLsbD 24 then x.live.value else (data.setWidth 24).toInt
              fresh := true
              mark := x.live.mark || data.getLsbD 25 }
          counters := { x.counters with
            superseded :=
              if x.live.fresh = true ∧ (x.state = .running ∨ x.state = .draining ∨
                  (x.state = .halted ∧ x.config.fallback = .live)) then
                min (x.counters.superseded + 1) 4294967295
              else x.counters.superseded } })) ∧
    (24 ≤ data.toNat / 2 ^ 26 →
      exec (.sample wait data) s = .next { s.pass wait with
        link := { s.link with badLane := min (s.link.badLane + 1) 4294967295 } })) ∧
  ∀ (s : State) (l : LaneId), (s.lane l).config.source = .live →
    (∀ r ∈ (s.lane l).chain, (s.rule r).fields.action ≠ .freeze) →
      (sourceStage s l).2.presented =
        .code (s.lane l).live.value (if (s.lane l).live.mark then some 0 else none)

/-- A HEADER closes an open record short (R157) and then takes the tail place of the command queue, or,
with 8 places held, is discarded as an overrun whose payload will be skipped (R155, R158). -/
def Obligations.HeaderTakesAPlace : Prop :=
  ∀ (wait : Nat) (data : Word) (s : State), s.resetLow = false →
    let u := settle (s.pass wait)
    let queue := match s.link.assembler with
      | .opened _ => s.cmd.queue.map fun q =>
          if q.state = .assembling then
            { q with state := .waiting, mark := if q.mark = .corrupt then .corrupt else .truncated }
          else q
      | _ => s.cmd.queue
    let length := data.toNat / 2 ^ 10 % 2 ^ 6
    let code := data.toNat / 2 ^ 24
    let tag := data.toNat / 2 ^ 16 % 2 ^ 8
    (s.cmd.queue.length < 8 →
      exec (.header wait data) s = .next { u with
        cmd := { s.cmd with queue := queue ++
          [{ state := if length = 0 then .waiting else .assembling
             code := code, tag := tag, length := length, index := data.toNat % 2 ^ 10
             payload := [], mark := .complete }] }
        link := { s.link with assembler := if length = 0 then .idle else .opened length } }) ∧
    (8 ≤ s.cmd.queue.length →
      exec (.header wait data) s = .next (offerNotice
        { u with
          cmd := { s.cmd with queue := queue }
          link := { s.link with
            overrun := countUp s.link.overrun
            assembler := if length = 0 then .idle else .skipping length } }
        .overrun
        [BitVec.ofNat 32 (code + tag * 2 ^ 8), BitVec.ofNat 32 (countUp s.link.overrun)]))

/-- A PAYLOAD word is stray, joins and may close the open record, or is skipped (R156). -/
def Obligations.PayloadByAssemblerState : Prop :=
  ∀ (wait : Nat) (data : Word) (s : State), s.resetLow = false →
    (s.link.assembler = .idle →
      exec (.payload wait data) s = .next { s.pass wait with
        link := { s.link with stray := countUp s.link.stray } }) ∧
    (∀ n, s.link.assembler = .opened (n + 2) →
      exec (.payload wait data) s = .next { s.pass wait with
        cmd := { s.cmd with queue := s.cmd.queue.map fun q =>
          if q.state = .assembling then { q with payload := q.payload ++ [data] } else q }
        link := { s.link with assembler := .opened (n + 1) } }) ∧
    (s.link.assembler = .opened 1 →
      exec (.payload wait data) s = .next { s.pass wait with
        cmd := { s.cmd with queue := s.cmd.queue.map fun q =>
          if q.state = .assembling then { q with payload := q.payload ++ [data], state := .waiting }
          else q }
        link := { s.link with assembler := .idle } }) ∧
    (∀ n, s.link.assembler = .skipping (n + 1) →
      exec (.payload wait data) s = .next { s.pass wait with
        link := { s.link with assembler := if n = 0 then .idle else .skipping n } })

/-- A word that fails its parity is counted, marks an open record CORRUPT, and is reported as a SOFT
LINK_WORD error, which an EMPTY latch holds and offers in LATCH_SET, and another counts; no lane and no rule
is touched (R137, R140, R144, R149). -/
def Obligations.BadWordIsCountedAndReported : Prop :=
  ∀ (wait : Nat) (s : State), s.resetLow = false →
    let u := settle (s.pass wait)
    ∃ t, exec (.linkWordBad wait) s = .next t ∧
      t.link = { s.link with badWords := countUp s.link.badWords } ∧
      t.cmd = { s.cmd with queue := match s.link.assembler with
        | .opened _ => s.cmd.queue.map fun q =>
            if q.state = .assembling then { q with mark := .corrupt } else q
        | _ => s.cmd.queue } ∧
      t.latch = (match s.latch.state with
        | .empty => { s.latch with state := .held ⟨.linkWord, s.link.currentCycle⟩ }
        | _ => { s.latch with softLater := countUp s.latch.softLater }) ∧
      (s.latch.state ≠ .empty → t.ret = u.ret) ∧
      (s.latch.state = .empty → t.ret = (offerNotice u .latchSet [5, s.link.currentCycle, 0,
        BitVec.ofNat 32 s.latch.softLater, BitVec.ofNat 32 s.latch.hardLater]).ret) ∧
      t = { u with link := t.link, cmd := t.cmd, latch := t.latch, ret := t.ret }

/-- The silence timer's expiry in UP takes the link to LOST and offers LINK_LOST with the current cycle
and the limit; in WAITING and LOST the timer does not run (R152, R153; the refusal is log 3's). -/
def Obligations.SilenceExpiryLosesTheLink : Prop :=
  ∀ s : State,
    (s.link.state = .up →
      exec .silenceTimerExpiry s = .next (offerNotice
        { settle s with
          now := max s.now (s.link.lastMark + s.link.silenceLimit * 1000)
          link := { s.link with state := .lost } }
        .linkLost [s.link.currentCycle, BitVec.ofNat 32 s.link.silenceLimit])) ∧
    (s.link.state ≠ .up →
      exec .silenceTimerExpiry s = .refused (.notPossible "SILENCE_TIMER_EXPIRY"))

/-! ## The board -/

/-- PRESENCE_CHANGE sets the sense of its lane alone, in every state of the part (R189); a disturbance
changes the one item it names (R135). -/
def Obligations.BoardEventsChangeOneItem : Prop :=
  (∀ (wait : Nat) (l : LaneId) (present : Bool) (s : State),
    exec (.presenceChange wait l present) s = .next
      ((if s.resetLow then s else s.pass wait).modLane l fun x =>
        { x with port := { x.port with present := present } })) ∧
  (∀ (wait : Nat) (s : State), s.resetLow = false →
    let u := settle (s.pass wait)
    (∀ c k v agrees, exec (.storeCorruption wait (.curvePoint c k v agrees)) s =
      .next (u.setPoint c k ⟨v, agrees⟩)) ∧
    (∀ r f agrees, exec (.storeCorruption wait (.ruleRecord r f agrees)) s =
      .next (u.modRule r fun x => { x with fields := f, codeOk := agrees })) ∧
    (∀ l i e agrees, exec (.storeCorruption wait (.playlistEntry l i e agrees)) s =
      .next (u.modLane l fun x => { x with playlist := x.playlist.set i ⟨e, agrees⟩ })))

/-! ## Ticks, rules and ports -/

/-- Taking the ends that have fallen due (`settle`, log 9) is to take them by their rows: a delay that alone
has run out as RULE_DELAY_END takes it, a duration that alone has run out as RULE_DURATION_END does; of
several, the delays first and then the durations lane by lane in chain order (R99, R105; log 21). It changes
rules, chains and the notice queue alone, and nothing when no delay and no duration has run out. -/
def Obligations.SettledStateIsUnchanged : Prop :=
  ∀ s : State,
    let t := settle s
    let delayEnds (r : RuleId) : Prop :=
      (s.rule r).state = .triggered ∧ (s.rule r).delayCount = 0 ∧ (s.rule r).attemptDue = false
    ((∀ r, (s.rule r).endDue = false ∧ ((s.rule r).state = .triggered → (s.rule r).delayCount = 0 →
        (s.rule r).attemptDue = true)) → t = s) ∧
    (∀ r, delayEnds r → (∀ j, j ≠ r → ¬delayEnds j) → (∀ j, (s.rule j).endDue = false) →
      exec (.ruleDelayEnd r) s = .next t) ∧
    (∀ (r : RuleId) (l : LaneId), (s.rule r).state = .active → (s.rule r).endDue = true →
      (∀ j, ¬delayEnds j) → (∀ j, j ≠ r → (s.rule j).endDue = false) → (s.lane l).chain.count r = 1 →
      (∀ k, k ≠ l → r ∉ (s.lane k).chain) → exec (.ruleDurationEnd ⟨r, none⟩) s = .next t) ∧
    (∀ u : State,
      (∀ r, (delayEnds r → u.rule r = { s.rule r with attemptDue := true }) ∧
        (¬delayEnds r → u.rule r = s.rule r)) →
      u = { s with rules := u.rules } →
        t = ((List.finRange 24).flatMap fun l => (s.lane l).chain.filter fun r => (s.rule r).endDue).foldl
          endActivation u) ∧
    (∀ (r : RuleId) (v : State), (v.rule r).state = .active → (v.rule r).endDue = true →
      exec (.ruleDurationEnd ⟨r, none⟩) v = .next (endActivation v r)) ∧
    (∀ l, t.lane l = { s.lane l with chain := (t.lane l).chain }) ∧
    (∀ r, (t.rule r).fields = (s.rule r).fields ∧ (t.rule r).codeOk = (s.rule r).codeOk) ∧
    t = { s with
      lanes := t.lanes
      rules := t.rules
      ret := { s.ret with notices := t.ret.notices, noticesDropped := t.ret.noticesDropped } }

/-- A tick of a TIMED lane falls at its due time and adds 1 to TICKS, and the lane's later ticks stay on
the grid fixed at its start (R14, R16). With nothing taken within it, it is the lane's tick in one piece
(R126's events within a tick: log 23; R147's reset: log 43), TICKS counted before step 1, so that the notices
of the tick carry it (log 10: the model's choice): where the lane runs its steps, the source
stage, step 2, step 3 and the last steps follow one another, a SOFT error is reported after step 1, and a
HARD error ends the tick with its report (R16, R137, R138). No tick changes a configuration, a playlist, the
curves, trace memory, the TMC or the fill queue, and none in which no record is taken changes the link or
the Command Unit. -/
def Obligations.TimedTickKeepsItsGrid : Prop :=
  (∀ (l : LaneId) (w : Within) (s : State) (next period : Nat),
    (s.lane l).pacing = .timed next period →
    ∃ t, exec (.timedTick ⟨l, w⟩) s = .next t ∧ t.now = max s.now next ∧
      t = tickWith (fun _ v => v) w
        ((s.reach next).setLane l { s.lane l with pacing := .timed (next + period) period }) l ∧
      (∀ v, tickWith (fun _ v => v) {} v l = (laneTick .whole v l).1) ∧
      ((s.lane l).takesTicks = true → w.reset = none →
        (t.lane l).counters.ticks = countUp (s.lane l).counters.ticks) ∧
      ((t.lane l).takesTicks = true → (t.lane l).pacing = .timed (next + period) period) ∧
      (∀ k, (t.lane k).config = (s.lane k).config ∧ (t.lane k).playlist = (s.lane k).playlist) ∧
      (w.takesNoRecord → t.link = s.link ∧ t.cmd = s.cmd) ∧
      t.resetLow = s.resetLow ∧ t.curves = s.curves ∧
      t.tmc = s.tmc ∧ t.mem = s.mem ∧ t.dir.fillQueue = s.dir.fillQueue ∧
      t.freeCount = s.freeCount ∧ t.pending = s.pending) ∧
  ∀ (l : LaneId) (s : State),
    let u := settle s
    let x := u.lane l
    let t := (laneTick .whole s l).1
    x.state = .draining ∨ (x.state = .running ∧ (x.config.source = .live → u.link.state ≠ .lost)) →
      let first := sourceStage (u.setLane l { x with
        counters := { x.counters with ticks := countUp x.counters.ticks } }) l
      let told : State := match first.2.error with
        | some e => report first.1 e
        | none => first.1
      (∀ v e, step2 told l first.2.presented = .endedTick v e → t = report v e) ∧
      ∀ v attempted, step2 told l first.2.presented = .goOn v attempted →
        (∀ w e, step3 v l = .endedTick w e → t = report w e) ∧
        ∀ w gates, step3 v l = .goOn w gates →
          (∀ z e, lastSteps .whole w l first.2 gates = .endedTick z e → t = report z e) ∧
          ∀ z, lastSteps .whole w l first.2 gates = .goOn z () → t = z

/-- A tick of a TIMED RUNNING or DRAINING lane with an empty chain, in a part with no rule ARMED or
TRIGGERED, whose curve points pass their check: the sensed code of its SOURCE goes through the curve stage,
is cut to the word length, is pushed into the history and is handed to the port with line state NORMAL; a
LIVE lane consumes its register; a REPLAY lane discards head words for its debt and plays the next, or its
previous code for a word with HOLD or one that fails its check, which is a SOFT error (R16 to R19, R23, R58,
R59, R62, R74, R82, R137). With one ACTIVE rule in the chain, not FREEZE: its gate draws (R106, R107), its
TICKS duration counts (R100), and where it applies it is counted and its action alters the code before the
curve (R69 to R72, R117 to R121), the output code or SWAP (R122, R123), the word (R124, R125, R128), the line
state (R129) or the frame flags (R131), and the hand-over is FAULTED (R114, R115). A point or a rule that
fails its check ends the tick with its HARD report (R77, R108, R138), LANE_ENDED's TICKS counting this tick
(log 10: the model's choice). The clauses with a rule in the chain and those of a HARD error are stated for
RUNNING CONSTANT lanes. -/
def Obligations.QuietTickConvertsItsCode : Prop :=
  (∀ (l : LaneId) (s : State) (next period : Nat) (e : Int) (o : OutCode),
    let x := s.lane l
    let after (u : State) (y : Lane) : State :=
      let w : OutCode := o >>> (20 - x.config.wordLength.bits)
      handOver ((u.reach next).setLane l { y with
          pacing := .timed (next + period) period
          counters := { y.counters with ticks := countUp y.counters.ticks }
          prev := some e
          history := (w :: y.history).take 64 })
        l ⟨⟨w, .normal, false, false, .normal⟩, false, false⟩
    x.pacing = .timed next period → x.state = .running ∨ x.state = .draining → x.chain = [] →
    (∀ r, (s.rule r).state ≠ .armed ∧ (s.rule r).state ≠ .triggered ∧ (s.rule r).endDue = false) →
    curveStage s x.config.curve e = .code o →
      (x.config.source = .constant → x.config.constantCode = e →
        exec (.timedTick ⟨l, {}⟩) s = .next (after s x)) ∧
      (x.config.source = .live → s.link.state ≠ .lost → x.live.value = e →
        exec (.timedTick ⟨l, {}⟩) s = .next (after s
          { x with
            live := ⟨e, false, false⟩
            counters := { x.counters with
              stale := if x.live.fresh then x.counters.stale else countUp x.counters.stale } })) ∧
      (∀ q rest, x.config.source = .replay →
        x.queue.drop (min x.debt (x.queue.length - 1)) = q :: rest →
        e = (if traceWordFails q.word = true ∨ q.word.getLsbD 25 = true then x.prev.getD 0
          else (q.word.setWidth 24).toInt) →
        lastWordOfPlaylist x q.place = false → (x.state = .draining → q.place.endOfPass = false) →
          exec (.timedTick ⟨l, {}⟩) s = .next (after
            (if traceWordFails q.word then report s (.traceReplay l q.place.address) else s)
            { x with queue := rest, debt := x.debt - min x.debt (x.queue.length - 1) }))) ∧
  (∀ (l : LaneId) (r : RuleId) (s : State) (next period : Nat) (o : OutCode),
    let x := s.lane l
    let y := s.rule r
    let a := y.fields.action
    let gate : BitVec 16 := if y.fields.intermittency = 0 then x.gate else gateStep x.gate
    let applies : Bool := y.fields.intermittency = 0 || decide (y.fields.intermittency ≤ gate.toNat / 256)
    let value : ValueResult := if applies then valueAction a x.config.constantCode y.noise y.ramp
      else ⟨x.config.constantCode, false, y.noise, y.ramp⟩
    let out : OutCode := if applies then
        match a with
        | .force m k => (o &&& m) ||| k
        | .flip m => o ^^^ m
        | .codeStuck c => c
        | _ => o
      else o
    let w : OutCode := out >>> (20 - x.config.wordLength.bits)
    let word : OutCode := if applies then
        match a with
        | .drop => if x.sentSinceStart then x.lastWord else x.config.restWord
        | .delay n => ((w :: x.history)[n]?).getD x.config.restWord
        | _ => w
      else w
    let line : LineState := if applies then match a with | .line st => st | _ => .normal else .normal
    let sequence : SequenceMode := if applies then
        match a with
        | .seqHold => .hold
        | .seqJump k => .jump k
        | _ => .normal
      else .normal
    let counted : Rule := if y.fields.unit = .ticks ∧ 0 < y.durationCount then
        { y with durationCount := y.durationCount - 1, endDue := decide (y.durationCount = 1) }
      else y
    x.pacing = .timed next period → x.state = .running → x.config.source = .constant → x.chain = [r] →
    y.state = .active → y.codeOk = true → a ≠ .freeze →
    (∀ j, (s.rule j).state ≠ .armed ∧ (s.rule j).state ≠ .triggered ∧ (s.rule j).endDue = false) →
    curveStage s x.config.curve value.e = .code o →
      exec (.timedTick ⟨l, {}⟩) s = .next (handOver
        (((s.reach next).setRule r (if applies then
            { counted with applied := countUp y.applied, noise := value.noise, ramp := value.ramp }
          else counted)).setLane l { x with
            pacing := .timed (next + period) period
            gate := gate
            prev := some x.config.constantCode
            history := (w :: x.history).take 64
            counters := { x.counters with
              ticks := countUp x.counters.ticks
              saturations := if value.clamped then countUp x.counters.saturations
                else x.counters.saturations } })
        l ⟨⟨word, line, applies && decide (a = .orderSwap), applies && decide (a = .checkBad), sequence⟩,
          applies && decide (classOf a = .time), applies⟩)) ∧
  (∀ (l : LaneId) (s : State) (next period : Nat),
    let x := s.lane l
    let ended (chain : List RuleId) : State := (s.reach next).setLane l { x with
      pacing := .timed (next + period) period
      counters := { x.counters with ticks := countUp x.counters.ticks }
      prev := some x.config.constantCode
      chain := chain }
    x.pacing = .timed next period → x.state = .running → x.config.source = .constant →
    (∀ j, (s.rule j).state ≠ .armed ∧ (s.rule j).state ≠ .triggered ∧ (s.rule j).endDue = false) →
      (∀ c k, x.chain = [] → curveStage s x.config.curve x.config.constantCode = .fails c k →
        exec (.timedTick ⟨l, {}⟩) s = .next (report (ended []) (.curveCheck l c k))) ∧
      (∀ r, x.chain = [r] → (s.rule r).fields.action ≠ .freeze → (s.rule r).codeOk = false →
        (∀ k, k ≠ l → r ∉ (s.lane k).chain) →
          exec (.timedTick ⟨l, {}⟩) s = .next (report ((ended []).setRule r .vacant) (.ruleCheck l r))))

/-- A tick with nothing of its own to present hands a fallback word: a LIVE lane while the link is LOST hands
the word of its FALLBACK and counts LOST_TICKS (R20); a REPLAY lane whose queue is empty hands the hold word,
counts UNDERRUNS and, with KEEP_PACE, adds 1 to its debt (R22, R60 to R62); a FREEZE tick leaves its source
alone, hands the hold word FAULTED and counts its rule at step 1, also where that rule leaves the chain within
the tick by DISARM or at the end of a CYCLES activation, or where another rule's failing check ends the tick
(R108, R126, R127; log 23, log 42). A HALTED lane with FALLBACK LIVE
converts its live register without rules, and hands the hold word while the link is LOST (log 13) or after the
report of a point that fails (R11, R77). The last word of a drained pass, or else of the playlist, takes its
lane OFF with LANE_ENDED (R9, R38, R58, R66; log 10,
its reason codes log 33: the model's choices). -/
def Obligations.FallbackTicksHandTheirWord : Prop :=
  (∀ (l : LaneId) (s : State) (next period : Nat),
    let x := s.lane l
    let hold : OutCode := if x.sentSinceStart then x.lastWord else x.config.restWord
    let ticked (u : State) (y : Lane) : State := (u.reach next).setLane l { y with
      pacing := .timed (next + period) period
      counters := { y.counters with ticks := countUp y.counters.ticks } }
    let hands (u : State) (w : OutCode) (held faulted : Bool) : State :=
      handOver u l ⟨⟨w, .normal, false, false, .normal⟩, held, faulted⟩
    x.pacing = .timed next period →
      ((∀ r, (s.rule r).endDue = false ∧ (s.rule r).state ≠ .triggered) →
        (x.state = .running → x.config.source = .live → s.link.state = .lost →
          exec (.timedTick ⟨l, {}⟩) s = .next (hands (ticked s
            { x with counters := { x.counters with lostTicks := countUp x.counters.lostTicks } })
            (match x.config.fallback with | .hold => hold | .rest => x.config.restWord | .live => hold)
            true false)) ∧
        (x.state = .running ∨ x.state = .draining → x.chain = [] → x.config.source = .replay →
          x.queue = [] →
            exec (.timedTick ⟨l, {}⟩) s = .next (hands (ticked s
              { x with
                counters := { x.counters with underruns := countUp x.counters.underruns }
                debt := match x.config.underrun with
                  | .slip => x.debt
                  | .keepPace => min (x.debt + 1) 65535 })
              hold true false)) ∧
        (x.state = .halted → x.config.fallback = .live →
          (s.link.state = .lost →
            exec (.timedTick ⟨l, {}⟩) s = .next (hands (ticked s x) hold true false)) ∧
          (s.link.state ≠ .lost →
            let sensed (history : List OutCode) : State := ticked s { x with
              live := ⟨x.live.value, false, false⟩
              prev := some x.live.value
              history := history
              counters := { x.counters with
                stale := if x.live.fresh then x.counters.stale else countUp x.counters.stale } }
            (∀ o : OutCode, curveStage s x.config.curve x.live.value = .code o →
              let w : OutCode := o >>> (20 - x.config.wordLength.bits)
              exec (.timedTick ⟨l, {}⟩) s =
                .next (hands (sensed ((w :: x.history).take 64)) w false false)) ∧
            (∀ c k, curveStage s x.config.curve x.live.value = .fails c k →
              exec (.timedTick ⟨l, {}⟩) s =
                .next (hands (report (sensed x.history) (.curveCheck l c k)) hold true false)))) ∧
        (∀ r, x.state = .running → (x.config.source = .live → s.link.state ≠ .lost) → x.chain = [r] →
          (s.rule r).state = .active → (s.rule r).fields.action = .freeze → (s.rule r).codeOk = true →
          (s.rule r).fields.intermittency = 0 →
            let y := s.rule r
            let counted : Rule := if y.fields.unit = .ticks ∧ 0 < y.durationCount then
                { y with durationCount := y.durationCount - 1, endDue := decide (y.durationCount = 1) }
              else y
            exec (.timedTick ⟨l, {}⟩) s = .next (hands
              ((ticked s x).setRule r { counted with applied := countUp y.applied }) hold true true))) ∧
      (∀ (r : RuleId) (event : TickEvent), x.state = .running →
        (x.config.source = .live → s.link.state ≠ .lost) → x.chain = [r] →
        (s.rule r).fields.action = .freeze →
        (∀ i, (s.rule i).state ≠ .triggered ∧
          ((s.rule i).endDue = true → (s.rule i).fields.unit = .cycles ∧ event = .ruleEnd i)) →
          let v := takeWithin
            ((ticked s x).setRule r { s.rule r with applied := countUp (s.rule r).applied }) event
          (v.lane l).chain = [] → (∀ i, (v.rule i).state ≠ .triggered) →
            exec (.timedTick ⟨l, { afterSource := [event] }⟩) s = .next (hands v hold true true)) ∧
      (∀ r q : RuleId, x.state = .running → (x.config.source = .live → s.link.state ≠ .lost) →
        x.chain = [r, q] → q ≠ r → (s.rule r).fields.action = .freeze → (s.rule r).codeOk = true →
        (s.rule q).fields.action ≠ .freeze → (s.rule q).codeOk = false →
        (∀ k, k ≠ l → q ∉ (s.lane k).chain) →
        (∀ i, (s.rule i).endDue = false ∧ (s.rule i).state ≠ .triggered) →
          exec (.timedTick ⟨l, {}⟩) s = .next (report
            (((ticked s { x with chain := [r] }).setRule r
              { s.rule r with applied := countUp (s.rule r).applied }).setRule q .vacant)
            (.ruleCheck l q))) ∧
      (∀ q rest e (o : OutCode), x.state = .running ∨ x.state = .draining → x.chain = [] →
        (∀ r, (s.rule r).state ≠ .armed ∧ (s.rule r).state ≠ .triggered ∧ (s.rule r).endDue = false ∧
          ((s.rule r).fields.lane = l.val → (s.rule r).state ≠ .active)) →
        curveStage s x.config.curve e = .code o → x.config.source = .replay →
        x.queue.drop (min x.debt (x.queue.length - 1)) = q :: rest →
        e = (if traceWordFails q.word = true ∨ q.word.getLsbD 25 = true then x.prev.getD 0
          else (q.word.setWidth 24).toInt) →
        (x.state = .draining ∧ q.place.endOfPass = true) ∨ lastWordOfPlaylist x q.place = true →
          let w : OutCode := o >>> (20 - x.config.wordLength.bits)
          let u := hands (ticked
              (if traceWordFails q.word then report s (.traceReplay l q.place.address) else s)
              { x with
                prev := some e
                history := (w :: x.history).take 64
                queue := rest
                debt := x.debt - min x.debt (x.queue.length - 1) })
            w false false
          let reason : Nat := if x.state = .draining ∧ q.place.endOfPass = true then 1 else 0
          ∃ t, exec (.timedTick ⟨l, {}⟩) s = .next t ∧
            t.lane l = { u.lane l with
              state := .off
              pacing := .stopped
              queue := []
              fetch := x.fetch.map fun f => { f with voided := true }
              fetchPos := .none
              debt := 0
              counted := [] } ∧
            (∀ k, k ≠ l → t.lane k = s.lane k) ∧
            (∀ b, t.block b = { s.block b with inUse := (s.block b).inUse - x.counted.count b }) ∧
            t = { u with
              lanes := t.lanes
              dir := { s.dir with blocks := t.dir.blocks }
              ret := (offerNotice u .laneEnded [BitVec.ofNat 32 (l.val + reason * 2 ^ 8),
                s.link.currentCycle, BitVec.ofNat 32 (countUp x.counters.ticks)]).ret })) ∧
  (∀ (r : RuleId) (s : State), (s.rule r).state = .active → (s.rule r).endDue = true →
    (s.rule r).fields.unit = .cycles →
      exec (.ruleDurationEnd ⟨r, none⟩) s = .next (takeWithin s (.ruleEnd r))) ∧
  ∀ (s : State) (p : Place) (rest : List Place), Headed s p rest → CarriedOut .disarm p → settle s = s →
    (p.payload.getD 0 0 = 0 → exec .disarmRule s = .next (takeWithin s .disarm)) ∧
    (p.payload.getD 0 0 = 1 → exec .disarmGroup s = .next (takeWithin s .disarm))

/-- The hand-over of a word: into transfer at once at an idle port, else into the pending place, with
PORT_SUPERSEDED +1 where a pending word is replaced; it becomes the last-sent word, and a tapped lane
offers one TAP word, dropped and counted where 32 are queued (R21, R22, R163). -/
def Obligations.HandOverTakesThePort : Prop :=
  ∀ (s : State) (l : LaneId) (w : PortWord) (held faulted : Bool),
    let x := s.lane l
    let t := handOver s l ⟨w, held, faulted⟩
    let sent : Lane := { x with lastWord := w.word, lastLine := w.line, sentSinceStart := true }
    (x.port.transfer = none → t.lane l = { sent with port := moveToTransfer s.now x.config x.port w }) ∧
    (x.port.transfer ≠ none → x.port.pending = none →
      t.lane l = { sent with port := { x.port with pending := some w } }) ∧
    (x.port.transfer ≠ none → x.port.pending ≠ none →
      t.lane l = { sent with
        port := { x.port with pending := some w }
        counters := { x.counters with portSuperseded := countUp x.counters.portSuperseded } }) ∧
    (∀ k, k ≠ l → t.lane k = s.lane k) ∧
    t = { s with
      lanes := t.lanes
      ret :=
        if l ∉ s.ret.tapLanes then s.ret
        else if s.ret.taps.length < 32 then
          { s.ret with taps := s.ret.taps ++
            [BitVec.ofNat 32 (l.val * 2 ^ 27 + lineCode w.line * 2 ^ 25 + held.toNat * 2 ^ 24 +
              faulted.toNat * 2 ^ 23 + w.word.toNat)] }
        else { s.ret with tapsDropped := countUp s.ret.tapsDropped } }

/-- A completing transfer strobes its word, the code lines take its line state, and a pending word moves
into transfer at once, as a LEVEL word of L bits, in its order, or as a frame with the next sequence count; a
frame is SEQ, the word, zeros to a whole byte, and the check byte that makes its bytes sum to 255, every bit
of it inverted under CHECK_BAD (R132, R184 to R188). -/
def Obligations.StrobeMovesThePort : Prop :=
  (∀ (len : WordLength) (w : OutCode),
    wordBits len .msbFirst w = (List.range len.bits).map (fun i => w.getLsbD (len.bits - 1 - i)) ∧
    wordBits len .lsbFirst w = (List.range len.bits).map fun i => w.getLsbD i) ∧
  (∀ (len : WordLength) (order : BitOrder) (seq : BitVec 4) (w : OutCode) (bad : Bool),
    let bits := frameBits len order seq w bad
    let body := bits.length - 8
    bits.length = (if len.bits ≤ 12 then 24 else 32) ∧
      bits.take 4 = [seq.getLsbD 3, seq.getLsbD 2, seq.getLsbD 1, seq.getLsbD 0] ∧
      (bits.drop 4).take len.bits = wordBits len order w ∧
      (bits.take body).drop (4 + len.bits) = List.replicate (body - (4 + len.bits)) false ∧
      (bad = false → (bytesOf (bits.length / 8) bits).sum % 256 = 255) ∧
      (bad = true →
        let right := frameBits len order seq w false
        bits.take body = right.take body ∧ bits.drop body = (right.drop body).map fun b => !b)) ∧
  ∀ (l : LaneId) (s : State) (tr : Transfer),
    let x := s.lane l
    let now := max s.now tr.strobeAt
    let d := x.config.portDivider
    let len := x.config.wordLength
    x.port.transfer = some tr →
      (x.port.pending = none →
        exec (.portTransferComplete l) s = .next ((s.reach tr.strobeAt).setLane l { x with
          port := { x.port with transfer := none, strobedLine := tr.line } })) ∧
      (∀ w, x.port.pending = some w →
        let order := if w.swap = (x.config.bitOrder = .msbFirst : Bool) then BitOrder.lsbFirst else .msbFirst
        (x.config.portKind = .level →
          exec (.portTransferComplete l) s = .next ((s.reach tr.strobeAt).setLane l { x with
            port := { x.port with
              transfer := some ⟨wordBits len order w.word, 20 * (d + 1), w.line,
                now + (len.bits + 2) * (20 * (d + 1))⟩
              pending := none
              strobedLine := tr.line } })) ∧
        (x.config.portKind = .frame →
          let seq : BitVec 4 := match w.sequence with
            | .normal => x.port.seqCount + 1
            | .hold => x.port.seqCount
            | .jump k => x.port.seqCount + BitVec.ofNat 4 (k + 1)
          exec (.portTransferComplete l) s = .next ((s.reach tr.strobeAt).setLane l { x with
            port := { x.port with
              transfer := some ⟨frameBits len order seq w.word w.checkBad, 20 * (d + 1), w.line,
                now + ((if len.bits ≤ 12 then 24 else 32) + 2) * (20 * (d + 1))⟩
              pending := none
              seqCount := seq
              strobedLine := tr.line } })))

/-- A delay that has run out makes the rule's attempt fall due (R99); a duration that has run out ends the
activation: the rule leaves its chain, is counted, becomes ARMED or SPENT, offers RULE_EVENT if NOTIFY is
yes, and its end is delivered to the rules that wait for it, an IMMEDIATE rule triggering again at once (R94,
R97, R105, R111; the notice's code of the event is log 33's, its TICKS log 10's and, for a LANE above 23,
log 47's). At step 3 of a tick the rules of the chain are
tested, and the first in chain order that fails becomes VACANT and ends the tick (R108, R135; the order is
log 35's); else the rules with INTERMITTENCY above 0 draw in chain order (R106, R107), and the TICKS delays
of the lane and the TICKS durations of its chain count the tick (R99, R100). -/
def Obligations.RuleEndsTakeTheirTime : Prop :=
  (∀ (r : RuleId) (s : State),
    let x := s.rule r
    let triggered (y : Rule) : Rule :=
      { y with
        state := .triggered
        delayCount := y.fields.delay
        baseSeen := false
        attemptDue := decide (y.fields.delay = 0)
        late := false }
    let takes (y : Rule) : Prop := y.state = .armed ∧ laneInPlay s y.fields.lane = true
    (x.state = .triggered → x.delayCount = 0 → x.attemptDue = false →
      exec (.ruleDelayEnd r) s = .next (s.setRule r { x with attemptDue := true })) ∧
    (x.state = .active → x.endDue = true →
      let left : Remaining := match x.remaining with
        | .unlimited => .unlimited
        | .count n => .count (n - 1)
      let ended : Rule :=
        { x with
          activations := countUp x.activations
          remaining := left
          state := if left = .count 0 then .spent else .armed
          durationCount := 0
          endDue := false }
      ∃ t, exec (.ruleDurationEnd ⟨r, none⟩) s = .next t ∧
        (takes ended ∧ (x.fields.trigger = .immediate ∨ x.fields.trigger = .onRule r .ended) →
          t.rule r = triggered ended) ∧
        (¬(takes ended ∧ (x.fields.trigger = .immediate ∨ x.fields.trigger = .onRule r .ended)) →
          t.rule r = ended) ∧
        (∀ j, j ≠ r →
          (takes (s.rule j) ∧ (s.rule j).fields.trigger = .onRule r .ended →
            t.rule j = triggered (s.rule j)) ∧
          (¬(takes (s.rule j) ∧ (s.rule j).fields.trigger = .onRule r .ended) →
            t.rule j = s.rule j)) ∧
        (∀ l, t.lane l = { s.lane l with chain := (s.lane l).chain.erase r }) ∧
        (x.fields.notify = false → t.ret = s.ret) ∧
        (x.fields.notify = true →
          let ticks : Nat := if h : x.fields.lane < 24 then (s.lane ⟨x.fields.lane, h⟩).counters.ticks
            else 0
          t.ret = (offerNotice s .ruleEvent
            [BitVec.ofNat 32 (r.val + 1 * 2 ^ 8 + x.fields.lane * 2 ^ 12), s.link.currentCycle,
              BitVec.ofNat 32 ticks, BitVec.ofNat 32 (countUp x.activations)]).ret) ∧
        t = { s with
          lanes := t.lanes
          rules := t.rules
          ret := { s.ret with notices := t.ret.notices, noticesDropped := t.ret.noticesDropped } })) ∧
  ∀ (l : LaneId) (s : State),
    let x := s.lane l
    (∀ before r later, x.chain = before ++ r :: later → (∀ i ∈ before, (s.rule i).codeOk = true) →
      (s.rule r).codeOk = false →
        ∃ t, step3 s l = .endedTick t (.ruleCheck l r) ∧ t.rule r = .vacant ∧
          (∀ j, j ≠ r → t.rule j = s.rule j) ∧
          (∀ k, t.lane k = { s.lane k with chain := (s.lane k).chain.erase r }) ∧
          t = { s with lanes := t.lanes, rules := t.rules }) ∧
    ((∀ i ∈ x.chain, (s.rule i).codeOk = true) →
      let draws (n : Nat) : Nat :=
        ((x.chain.take n).filter fun i => (s.rule i).fields.intermittency ≠ 0).length
      ∃ t gates, step3 s l = .goOn t gates ∧ gates.length = x.chain.length ∧
        (∀ n i, x.chain[n]? = some i → gates[n]? = some (i,
          let level := (s.rule i).fields.intermittency
          decide (level = 0) ||
            decide (level ≤ (Nat.repeat gateStep (draws (n + 1)) x.gate).toNat / 256))) ∧
        t.lane l = { x with gate := Nat.repeat gateStep (draws x.chain.length) x.gate } ∧
        (∀ k, k ≠ l → t.lane k = s.lane k) ∧
        (∀ i,
          let y := s.rule i
          let delays : Prop := y.fields.unit = .ticks ∧ y.state = .triggered ∧
            y.fields.lane = l.val ∧ y.baseSeen = true ∧ 0 < y.delayCount
          let lasts : Prop := y.fields.unit = .ticks ∧ y.state = .active ∧ i ∈ x.chain ∧
            0 < y.durationCount
          (delays → t.rule i = { y with delayCount := y.delayCount - 1 }) ∧
          (lasts → t.rule i = { y with
            durationCount := y.durationCount - 1
            endDue := decide (y.durationCount = 1) }) ∧
          (¬delays → ¬lasts → t.rule i = y)) ∧
        t = { s with lanes := t.lanes, rules := t.rules })

/-! ## Trace memory -/

/-- A lane in play without a fetch in flight, with a fetch position and an entry lead below 2, issues the
fetch of its next yield when its free places can hold it; an entry that fails its check, by its code, its
column or its last row, is reported as a HARD PLAYLIST_CHECK error instead (R52, R54, R55; log 24). The yield
goes along the current pass, STEP by STEP, and ends with the pass or at another aligned group of 16 words
(R53). After its last word the position goes on along the pass, to the next pass, or to where END leads
(R47, R48), and is ENDED where nothing follows or a DRAINING lane has its pass (R55, R65); CLOSE-AFTER is set
where it lies in another memory row (R25, R55). -/
def Obligations.FetchIssueReservesItsWords : Prop :=
  (∀ (l : LaneId) (reset : Option Arrived) (s : State) (p : Position) (e : StoredEntry),
    let u := settle s
    let x := u.lane l
    x.state.inPlay = true → x.fetch = none → x.entryLead < 2 → x.fetchPos = .at p →
    x.playlist[p.entry]? = some e →
      (entryPasses u e = true →
        let words := nextYield (u.block e.entry.block) e.entry p
        words.length ≤ x.freePlaces →
          ∃ last, words.getLast? = some last ∧
            let pos := advancedPos x e.entry last
            exec (.fetchIssue ⟨l, reset⟩) s = .next
              { u.setLane l { x with fetch := some ⟨words, false⟩, fetchPos := pos } with
                tmc := { u.tmc with requests := u.tmc.requests ++
                  [⟨.lane l, words.map FetchWord.address, none,
                    closeAfterFor u x pos last.address, u.now, 0⟩] } }) ∧
      (entryPasses u e = false → 0 < x.freePlaces →
        exec (.fetchIssue ⟨l, none⟩) s = .next (report u (.playlistCheck l p.entry)))) ∧
  (∀ (s : State) (e : StoredEntry),
    let b := s.block e.entry.block
    entryPasses s e = true ↔ e.codeOk = true ∧ e.entry.column < b.columns ∧ e.entry.lastRow < b.rows) ∧
  (∀ (b : Block) (e : PlaylistEntry) (p : Position),
    let row (n : Nat) : Nat := match e.direction with
      | .forward => p.row + n * e.step
      | .reverse => p.row - n * e.step
    let address (n : Nat) : Nat := b.base + row n * b.columns + e.column
    let ends (n : Nat) : Prop := match e.direction with
      | .forward => e.lastRow < row n + e.step
      | .reverse => row n < e.firstRow + e.step
    let words := nextYield b e p
    1 ≤ b.columns → 1 ≤ e.step → words ≠ [] ∧
      ∀ n w, words[n]? = some w →
        w.address = address n ∧ w.position = { p with row := row n } ∧
        (w.endOfPass = true ↔ ends n) ∧
        (w.entryFinal = true ↔ ends n ∧ e.passes ≠ 0 ∧ p.pass = e.passes) ∧
        address n / 16 = address 0 / 16 ∧
        (n + 1 < words.length → ¬ends n) ∧
        (n + 1 = words.length → ends n ∨ address (n + 1) / 16 ≠ address 0 / 16)) ∧
  (∀ (pl : List StoredEntry) (e : PlaylistEntry) (p : Position),
    let start (f : PlaylistEntry) : Nat := match f.direction with
      | .forward => f.firstRow
      | .reverse => f.lastRow
    let visit (k : Nat) : Option Position := pl[k]?.map fun f => ⟨k, 1, start f.entry⟩
    let ends : Prop := match e.direction with
      | .forward => e.lastRow < p.row + e.step
      | .reverse => p.row < e.firstRow + e.step
    (¬ends → following pl e p = some { p with
      row := match e.direction with | .forward => p.row + e.step | .reverse => p.row - e.step }) ∧
    (ends → (e.passes = 0 ∨ p.pass ≠ e.passes) → following pl e p =
      some ⟨p.entry, if e.passes = 0 ∧ p.pass = 65535 then 1 else p.pass + 1, start e⟩) ∧
    (ends → e.passes ≠ 0 → p.pass = e.passes → following pl e p =
      match e.ending with
      | .next => visit (p.entry + 1)
      | .loop k => visit k
      | .stop => none)) ∧
  ∀ (s : State) (x : Lane) (e : PlaylistEntry) (last : FetchWord) (pos : FetchPosition) (a : Nat),
    (last.endOfPass = true → x.state = .draining → advancedPos x e last = .ended) ∧
    (last.endOfPass = false ∨ x.state ≠ .draining →
      advancedPos x e last = match following x.playlist e last.position with
        | some p => .at p
        | none => .ended) ∧
    (closeAfterFor s x pos a = true ↔ ∃ p f, pos = .at p ∧ x.playlist[p.entry]? = some f ∧
      ((s.block f.entry.block).base + p.row * (s.block f.entry.block).columns + f.entry.column) / 8192 ≠
        a / 8192)

/-- With a request eligible, its group idle with no refresh waiting, the arbiter grants one that no eligible
request goes before; it leaves the pending set, the passes of the others are counted, and its access takes
the time of its case and length (R25, R27, R29 to R31). Requests of 16 passes go first, the Command Unit's
before the fill engine's, then URGENT fetches, other fetches, the Command Unit and the fill engine; of one
class the older, and of one instant the lower lane (R29, R30). A grant to another passes over an eligible
request of the Command Unit or the fill engine, up to 16 times (R30). -/
def Obligations.ArbiterGrantsTheFirst : Prop :=
  (∀ s : State, (∃ q ∈ s.tmc.requests, eligible s q = true) →
    ∃ r ∈ s.tmc.requests, eligible s r = true ∧
      (∀ q ∈ s.tmc.requests, eligible s q = true → grantedBefore s q r = false) ∧
      let g := groupOf r.first
      let short := r.addresses.all fun a => a / 8 = r.first / 8
      let grant (c : RowCase) (time : Nat) : State :=
        { s with tmc :=
          { requests := (s.tmc.requests.erase r).map (passedOver s)
            groups := s.tmc.groups.set g.val
              { s.group g with access := some ⟨r, c, s.now + (if short then time - 8 else time)⟩ } } }
      ((s.group g).openRows[(bankOf r.first).val] = some (rowOf r.first) →
        exec .tmcGrant s = .next (grant .hit 40)) ∧
      ((s.group g).openRows[(bankOf r.first).val] = none →
        exec .tmcGrant s = .next (grant .closed 65)) ∧
      (∀ row, (s.group g).openRows[(bankOf r.first).val] = some row → row ≠ rowOf r.first →
        exec .tmcGrant s = .next (grant .miss 85))) ∧
  (∀ a : Nat, (groupOf a).val = a / 512 % 8 ∧ (bankOf a).val = a / 4096 % 2 ∧ rowOf a = a / 8192) ∧
  ∀ (s : State) (a b : Request),
    let g := s.group (groupOf a.first)
    let rank (r : Request) : Nat := match r.requester with
      | .command => if 16 ≤ r.passes then 0 else 4
      | .fill => if 16 ≤ r.passes then 1 else 5
      | .lane l =>
        if (s.lane l).queue.length ≤ 8 ∧ (s.lane l).fetch.map Fetch.voided = some false then 2 else 3
    let lane (r : Request) : Nat := match r.requester with
      | .lane l => l.val
      | _ => 0
    (eligible s a = true ↔
      g.access = none ∧ g.busyUntil = none ∧ g.refreshUntil = none ∧ g.refreshWaiting = false) ∧
    (grantedBefore s a b = true ↔ rank a < rank b ∨ rank a = rank b ∧
      (a.issued < b.issued ∨ a.issued = b.issued ∧ lane a < lane b)) ∧
    (passedOver s a = if (a.requester = .command ∨ a.requester = .fill) ∧ eligible s a = true then
      { a with passes := min 16 (a.passes + 1) } else a)

/-- An access that completes has changed its words if it is a write, leaves its row open in its bank or,
with CLOSE-AFTER, none, and keeps its group busy for 20 ns after CLOSE-AFTER and 15 ns after a write
(R27, R31). -/
def Obligations.AccessLeavesItsRow : Prop :=
  ∀ (s : State) (g : GroupId) (a : Access),
    let t := completeAccess s g a
    t.now = max s.now a.doneAt ∧
    (a.request.data = none → t.mem = s.mem) ∧
    (∀ ws, a.request.data = some ws → a.request.addresses.Nodup →
      a.request.addresses.length = ws.length →
        (∀ k ∈ a.request.addresses.zip ws, t.mem.read k.1 = k.2) ∧
        ∀ b, b ∉ a.request.addresses → t.mem.read b = s.mem.read b) ∧
    t.group g =
      { s.group g with
        openRows := (s.group g).openRows.set (bankOf a.request.first).val
          (if a.request.closeAfter then none else some (rowOf a.request.first))
        access := none
        busyUntil :=
          if a.request.closeAfter then some (max s.now a.doneAt + 20)
          else if a.request.data.isSome then some (max s.now a.doneAt + 15)
          else none } ∧
    (∀ k, k ≠ g → t.group k = s.group k) ∧
    t = { s with now := t.now, mem := t.mem, tmc := { s.tmc with groups := t.tmc.groups } }

/-- A lane's fetch that completes puts its words in their reserved places as they stand in trace memory,
or, if it was voided, drops them (R56, R57). -/
def Obligations.FetchCompletesOnce : Prop :=
  ∀ (l : LaneId) (s : State) (g : GroupId) (a : Access) (f : Fetch),
    (s.group g).access = some a → a.request.requester = .lane l →
    (∀ k b, (s.group k).access = some b → b.request.requester = .lane l → k = g) →
    (s.lane l).fetch = some f →
      let t := completeAccess s g a
      (f.voided = false →
        exec (.fetchComplete l) s = .next (t.setLane l { s.lane l with
          queue := (s.lane l).queue ++ f.words.map fun w => ⟨t.mem.read w.address, w⟩
          fetch := none })) ∧
      (f.voided = true →
        exec (.voidedFetchComplete l) s = .next (t.setLane l { s.lane l with fetch := none }))

/-- A fill write that completes counts one group of the head's fill; the last one makes the block READY,
offers BLOCK_READY and frees the head of the fill queue; a discarded one counts for nothing. The engine
then goes on with the head of the queue (R36, R37). -/
def Obligations.FillWriteCountsAGroup : Prop :=
  ∀ (s : State) (g : GroupId) (a : Access),
    (s.group g).access = some a → a.request.requester = .fill →
    (∀ k b, (s.group k).access = some b → b.request.requester = .fill → k = g) →
      let t := completeAccess (settle s) g a
      let goesOn (u : State) : State := match u.dir.fillQueue with
        | [] => u
        | b :: _ =>
          let first := (u.block b).base + 16 * u.dir.fillDone
          let count := min 16 ((u.block b).rows * (u.block b).columns - 16 * u.dir.fillDone)
          { u with
            dir := { u.dir with fillReq := .writing }
            tmc := { u.tmc with requests := u.tmc.requests ++
              [⟨.fill, (List.range count).map fun i => first + i, some (List.replicate count 0), false,
                u.now, 0⟩] } }
      (s.dir.fillReq = .discarding →
        exec .fillWriteComplete s = .next (goesOn { t with dir := { t.dir with fillReq := .idle } })) ∧
      (∀ b rest, s.dir.fillReq ≠ .discarding → s.dir.fillQueue = b :: rest →
        let groups := ((s.block b).rows * (s.block b).columns + 15) / 16
        (s.dir.fillDone + 1 < groups →
          exec .fillWriteComplete s = .next (goesOn { t with
            dir := { t.dir with fillReq := .idle, fillDone := s.dir.fillDone + 1 } })) ∧
        (groups ≤ s.dir.fillDone + 1 →
          exec .fillWriteComplete s = .next (goesOn (offerNotice
            { t with dir := { t.dir with
                blocks := t.dir.blocks.set b.val { t.block b with state := .ready }
                fillReq := .idle
                fillDone := 0
                fillQueue := rest } }
            .blockReady [BitVec.ofNat 32 b.val, s.link.currentCycle]))))

/-- A write of the Command Unit that completes patch-truncates the lanes that queue its words (R63), and
either the next write of the record is issued or the record is answered (R41, R42). -/
def Obligations.TraceWriteGoesOn : Prop :=
  ∀ (s : State) (g : GroupId) (a : Access) (first : List (Nat × Word))
    (later : List (List (Nat × Word))) (reply : Reply) (w : Window) (p : Place) (rest : List Place),
    s.cmd.unit = .held (.write (first :: later) reply) → s.cmd.queue = p :: rest →
    s.cmd.window = some w →
    (s.group g).access = some a → a.request.requester = .command →
    (∀ k b, (s.group k).access = some b → b.request.requester = .command → k = g) →
      let t := completeAccess (settle s) g a
      let u := t.mapLanes fun _ x =>
        if x.state.inPlay ∧ ∃ e ∈ x.playlist, e.entry.block = w.block then
          x.truncate a.request.addresses
        else x
      (later = [] → exec .traceWriteComplete s = .next (replied u p rest reply)) ∧
      (∀ cells more, later = cells :: more →
        exec .traceWriteComplete s = .next (heldOn
          { u with tmc := { u.tmc with requests := u.tmc.requests ++
            [⟨.command, cells.map Prod.fst, some (cells.map Prod.snd), false, u.now, 0⟩] } }
          p rest (.write later reply)))

/-- A read of the Command Unit that completes returns its group's words, reports each one that fails its
check as a SOFT TRACE_READ error, and issues the next read or answers the record, DONE_ERRORS if any word
failed, else ADJUSTED if the count was cut, else DONE (R44). -/
def Obligations.TraceReadGoesOn : Prop :=
  ∀ (s : State) (g : GroupId) (a : Access) (first : List Nat) (later : List (List Nat))
    (got : List Word) (cut errors : Bool) (p : Place) (rest : List Place),
    s.cmd.unit = .held (.read (first :: later) got cut errors) → s.cmd.queue = p :: rest →
    (s.group g).access = some a → a.request.requester = .command →
    (∀ k b, (s.group k).access = some b → b.request.requester = .command → k = g) →
      let t := completeAccess (settle s) g a
      let bad := a.request.addresses.filter fun k => traceWordFails (t.mem.read k)
      let u := bad.foldl (fun v k => report v (.traceRead p.tag k)) t
      let words := got ++ a.request.addresses.map t.mem.read
      (later = [] →
        exec .traceReadComplete s = .next (replied u p rest
          ⟨if errors = true ∨ bad ≠ [] then .doneErrors else if cut then .adjusted else .done,
            p.tag, p.code, words⟩)) ∧
      (∀ addresses more, later = addresses :: more →
        exec .traceReadComplete s = .next (heldOn
          { u with tmc := { u.tmc with requests := u.tmc.requests ++
            [⟨.command, addresses, none, false, u.now, 0⟩] } }
          p rest (.read later words cut (errors || !bad.isEmpty))))

/-- The extra busy time ends; a refresh falls due every 3,900 ns from 487.5 ns times the group's number,
rounded down to 5 ns, starts at once in an idle group and else waits for it, lasts 260 ns, and ends with
no open row in either bank (R27, R31, R32). -/
def Obligations.RefreshKeepsItsSchedule : Prop :=
  ∀ (g : GroupId) (s : State),
    let x := s.group g
    (∀ t, x.busyUntil = some t →
      exec (.groupBusyEnd g) s = .next ((s.reach t).setGroup g { x with busyUntil := none })) ∧
    (s.resetLow = false →
      let due := (4875 * g.val + 39000 * x.refreshCount) / 50 * 5
      (x.access = none → x.busyUntil = none → x.refreshUntil = none →
        exec (.refreshDue g) s = .next ((s.reach due).setGroup g { x with
          refreshCount := x.refreshCount + 1
          refreshWaiting := false
          refreshUntil := some (max s.now due + 260) })) ∧
      (x.access ≠ none ∨ x.busyUntil ≠ none ∨ x.refreshUntil ≠ none →
        exec (.refreshDue g) s = .next ((s.reach due).setGroup g { x with
          refreshCount := x.refreshCount + 1
          refreshWaiting := true }))) ∧
    (x.refreshWaiting = true → x.access = none → x.busyUntil = none → x.refreshUntil = none →
      exec (.refreshStart g) s = .next (s.setGroup g { x with
        refreshWaiting := false
        refreshUntil := some (s.now + 260) })) ∧
    (∀ t, x.refreshUntil = some t →
      exec (.refreshEnd g) s = .next ((s.reach t).setGroup g { x with
        refreshUntil := none
        openRows := Vector.replicate 2 none }))

/-! ## The return direction and the Command Unit -/

/-- A notice offered is discarded uncounted when its kind is disabled, counted in NOTICES_DROPPED when 16
notices are queued, and else queued (R162, R178). When the return direction is free it goes on with the
record in transfer, else sends the head of the reply queue, else of the notice queue, else of the tap queue,
one word in 16 ns; a header carries the attention flag as it stands (R143, R148, R160; begun from a free
direction by log 25). -/
def Obligations.ReturnSenderChooses : Prop :=
  (∀ (s : State) (kind : NoticeKind) (payload : List Word),
    let enable : Nat := match kind with
      | .laneEnded => 0
      | .ruleEvent => 1
      | .latchSet => 2
      | .blockReady => 3
      | .linkLost => 4
      | .cycleJump => 5
      | .overrun => 6
    let t := offerNotice s kind payload
    (s.ret.mask.getLsbD enable = false → t = s) ∧
    (s.ret.mask.getLsbD enable = true → s.ret.notices.length < 16 →
      t = { s with ret := { s.ret with notices := s.ret.notices ++ [⟨kind, payload⟩] } }) ∧
    (s.ret.mask.getLsbD enable = true → 16 ≤ s.ret.notices.length →
      t = { s with ret := { s.ret with noticesDropped := countUp s.ret.noticesDropped } })) ∧
  ∀ s v : State,
    ((∃ t, s.ret.slotEnd = some t ∧ v = (settle s).reach t) ∨
      (s.ret.slotEnd = none ∧ v = settle s ∧
        (v.ret.replies ≠ [] ∨ v.ret.notices ≠ [] ∨ v.ret.taps ≠ []))) →
      let send (r : ReturnSender) (kind : Nat) (data : Word) (left : List Word) :
          Host.Outcome State Fault Refusal :=
        .next { v with ret := { r with
          inTransfer := if left = [] then none else some left
          slotEnd := some (v.now + 16)
          wire := some (makeLinkWord kind data) } }
      let attention : Nat := match v.latch.state with
        | .empty => 0
        | .held _ => 1
        | .heldNested _ => 1
      (∀ w left, s.ret.inTransfer = some (w :: left) →
        exec .returnWordSent s = send v.ret 3 w left) ∧
      (s.ret.inTransfer = none →
        (∀ r rest, v.ret.replies = r :: rest →
          exec .returnWordSent s = send { v.ret with replies := rest } 2
            (BitVec.ofNat 32 (r.status.code * 2 ^ 24 + r.tag * 2 ^ 16 + r.payload.length * 2 ^ 10 +
              attention * 2 ^ 9 + r.code)) r.payload) ∧
        (∀ n rest, v.ret.replies = [] → v.ret.notices = n :: rest →
          exec .returnWordSent s = send { v.ret with notices := rest } 2
            (BitVec.ofNat 32 (n.payload.length * 2 ^ 10 + attention * 2 ^ 9 + 2 ^ 8 + n.kind.code))
            n.payload) ∧
        (∀ w rest, v.ret.replies = [] → v.ret.notices = [] → v.ret.taps = w :: rest →
          exec .returnWordSent s = send { v.ret with taps := rest } 1 w []) ∧
        (v.ret.replies = [] → v.ret.notices = [] → v.ret.taps = [] →
          exec .returnWordSent s = .next { v with ret := { v.ret with slotEnd := none, wire := none } }))

/-- A reply that waits in the BLOCKED unit joins the reply queue when fewer than 16 replies are queued; its
record's place is freed and the unit becomes READY (R174). With 16 queued its event does not occur, and the
row is refused (log 3: the model's choice). -/
def Obligations.BlockedReplyIsPlaced : Prop :=
  ∀ (s : State) (r : Reply) (p : Place) (rest : List Place),
    s.cmd.unit = .blocked r → s.cmd.queue = p :: rest →
      (s.ret.replies.length < 16 →
        exec .blockedReplyPlaced s = .next { s with
          ret := { s.ret with replies := s.ret.replies ++ [r] }
          cmd := { s.cmd with queue := rest, unit := .ready } }) ∧
      (16 ≤ s.ret.replies.length →
        exec .blockedReplyPlaced s = .refused (.notPossible "BLOCKED_REPLY_PLACED"))

/-- Every record the unit takes meets the checks of its mark, its code and its length first, in this
order; the first that fails gives a REFUSED reply without payload that changes nothing else (R167, R168,
R171). Each row of the record's command takes it, or UNKNOWN_COMMAND_RECORD where no command has its code
(log 4: the model's choice). -/
def Obligations.RefusedRecordsChangeNothing : Prop :=
  ∀ (s : State) (p : Place) (rest : List Place), Headed s p rest →
    let refused (status : Status) : Host.Outcome State Fault Refusal :=
      .next (replied (settle s) p rest ⟨status, p.tag, p.code, []⟩)
    (∀ row c, managementRow row = some c → commandOf p.code = some c →
      (p.mark = .corrupt → exec row s = refused .corrupt) ∧
      (p.mark = .truncated → exec row s = refused .truncated) ∧
      (p.mark = .complete → ¬(c.lengths.1 ≤ p.payload.length ∧ p.payload.length ≤ c.lengths.2) →
        exec row s = refused .badLength)) ∧
    (commandOf p.code = none →
      (p.mark = .corrupt → exec .unknownCommandRecord s = refused .corrupt) ∧
      (p.mark = .truncated → exec .unknownCommandRecord s = refused .truncated) ∧
      (p.mark = .complete → exec .unknownCommandRecord s = refused .unknownCommand))

/-- IDENTIFY returns its seven words with status DONE and changes nothing (R175). -/
def Obligations.IdentifyReturnsSevenWords : Prop :=
  ∀ (s : State) (p : Place) (rest : List Place), Headed s p rest → CarriedOut .identify p →
    exec .identify s = .next (replied (settle s) p rest
      ⟨.done, p.tag, p.code, [5624, 3, 24, 256, 16, 128, 536870912]⟩)

/-- STATUS returns the part-wide state in the order R176 lists it, one field to a word, and changes nothing
(R176, R190; the tap list's layout is log 16's, the code of the window's validity log 45's: the model's
choices). -/
def Obligations.StatusReturnsThePart : Prop :=
  ∀ (s : State) (p : Place) (rest : List Place), Headed s p rest → CarriedOut .status p →
    let u := settle s
    let n (k : Nat) : Word := BitVec.ofNat 32 k
    let link : Word := match u.link.state with
      | .waiting => 0
      | .up => 1
      | .lost => 2
    let latch : Word := match u.latch.state with
      | .empty => 0
      | .held _ => 1
      | .heldNested _ => 2
    let lane (l : LaneId) : Word := match (u.lane l).state with
      | .off => 0
      | .primed => 1
      | .running => 2
      | .draining => 3
      | .halted => 4
    exec .status s = .next (replied u p rest ⟨.done, p.tag, p.code,
      [ link, u.link.currentCycle, n u.link.silenceLimit, n u.link.badWords, n u.link.stray,
        n u.link.badLane, n u.link.cycleJumps, n u.link.overrun, n u.ret.mask.toNat,
        tapListWord u.ret.tapLanes, n u.ret.noticesDropped, n u.ret.tapsDropped,
        n u.ret.replies.length, n u.ret.notices.length, latch, n u.cmd.queue.length,
        if u.cmd.window.isSome then 1 else 0, n u.dir.fillQueue.length ] ++
      (List.finRange 24).map lane⟩)

/-- READ_LANE, READ_RULE and READ_DIRECTORY return what they read and change nothing: a lane's 17 words
and its newest 46 words of history; a rule's record in the LOAD_RULE layout, its working values and
counters; three words for each descriptor (its STATE, COLUMNS and IN_USE, its BASE, its ROWS), a count past
id 127 cut, and three on the fill queue (its count and ids, the groups written and to write of its head). An
index outside the range is refused BAD_INDEX, a count outside 1 to 16 BAD_VALUE (R24, R34, R112, R190). The model's
choices: the code of UNLIMITED (log 18), the place word of an ACTIVE rule alone (log 34), looked up in the
chain of the LANE that the record holds (log 40). -/
def Obligations.ReadsReturnTheirState : Prop :=
  ∀ (s : State) (p : Place) (rest : List Place), Headed s p rest →
    let u := settle s
    let answer (status : Status) (words : List Word) : Host.Outcome State Fault Refusal :=
      .next (replied u p rest ⟨status, p.tag, p.code, words⟩)
    (CarriedOut .readLane p →
      (24 ≤ p.index → exec .readLane s = answer .badIndex []) ∧
      (∀ l : LaneId, p.index = l.val →
        let x := u.lane l
        let k := x.counters
        exec .readLane s = answer .done
          ([ numberWord (laneStateCode x.state + x.late.toNat * 2 ^ 3 + x.sentSinceStart.toNat * 2 ^ 4 +
              x.live.fresh.toNat * 2 ^ 5 + x.live.mark.toNat * 2 ^ 6 + x.prev.isSome.toNat * 2 ^ 7 +
              lineCode x.lastLine * 2 ^ 8 + x.history.length * 2 ^ 10),
            x.startCycle ] ++ encodeConfig x.config ++
          [ numberWord k.ticks, numberWord k.stale, numberWord k.superseded, numberWord k.lostTicks,
            numberWord k.underruns, numberWord k.saturations, numberWord k.portSuperseded,
            x.lastWord.setWidth 32, signedWord x.live.value, signedWord (x.prev.getD 0),
            numberWord (x.fill + x.debt * 2 ^ 16) ] ++
          (x.history.take 46).map fun w => w.setWidth 32))) ∧
    (CarriedOut .readRule p →
      (256 ≤ p.index → exec .readRule s = answer .badIndex []) ∧
      (∀ i : RuleId, p.index = i.val →
        let r := u.rule i
        let fixed := encodeRule r.fields ++
          [ numberWord (ruleStateCode r.state), numberWord r.delayCount, numberWord r.durationCount,
            remainingWord r.remaining, numberWord r.noise.toNat, signedWord r.ramp,
            numberWord r.activations, numberWord r.missed, numberWord r.applied ]
        (r.state ≠ .active ∨ 24 ≤ r.fields.lane → exec .readRule s = answer .done fixed) ∧
        (∀ l : LaneId, r.state = .active → r.fields.lane = l.val →
          exec .readRule s = answer .done (fixed ++ [numberWord ((u.lane l).chain.idxOf i)])))) ∧
    (CarriedOut .readDirectory p →
      let count := (p.payload.getD 0 0).toNat
      let state (b : BlockId) : Nat := match (u.block b).state with
        | .vacant => 0
        | .filling => 1
        | .ready => 2
      let descriptor (b : BlockId) : List Word :=
        [ BitVec.ofNat 32 (state b + (u.block b).columns * 2 ^ 2 + (u.block b).inUse * 2 ^ 7),
          BitVec.ofNat 32 (u.block b).base, BitVec.ofNat 32 (u.block b).rows ]
      let id (k : Nat) : Nat := match u.dir.fillQueue[k]? with
        | some b => b.val
        | none => 0
      let queued : List Word :=
        [ BitVec.ofNat 32 (u.dir.fillQueue.length + id 0 * 2 ^ 3 + id 1 * 2 ^ 10 + id 2 * 2 ^ 17 +
            id 3 * 2 ^ 24) ] ++
        match u.dir.fillQueue with
        | [] => [0, 0]
        | b :: _ => [ BitVec.ofNat 32 u.dir.fillDone,
            BitVec.ofNat 32 (((u.block b).rows * (u.block b).columns + 15) / 16) ]
      (128 ≤ p.index → exec .readDirectory s = answer .badIndex []) ∧
      (p.index < 128 → count = 0 ∨ 16 < count → exec .readDirectory s = answer .badValue []) ∧
      (p.index < 128 → 1 ≤ count → count ≤ 16 →
        exec .readDirectory s = answer (if 128 < p.index + count then .adjusted else .done)
          ((((List.finRange 128).drop p.index).take count).flatMap descriptor ++ queued)))

/-- READ_LATCH returns the latch as it stands and changes none of it; CLEAR_LATCH returns it the same way
and empties it, its counters 0, the lanes left as they are (R145, R146). The words of the latch, in these
replies and in LATCH_SET, are its state with the descriptor, and the two counters (R136, R144). -/
def Obligations.LatchIsReadAndCleared : Prop :=
  (∀ k : Latch,
    let words (code : Nat) (descriptor : List Word) : List Word :=
      descriptor.set 0 (descriptor.getD 0 0 + BitVec.ofNat 32 code) ++
        [BitVec.ofNat 32 k.softLater, BitVec.ofNat 32 k.hardLater]
    let body (d : Descriptor) : List Word := match d.detail with
      | .traceReplay l a => [BitVec.ofNat 32 (2 ^ 6 + l.val * 2 ^ 8), d.cycle, BitVec.ofNat 32 a]
      | .traceRead tag a => [BitVec.ofNat 32 (2 ^ 7 + tag * 2 ^ 16), d.cycle, BitVec.ofNat 32 a]
      | .linkWord => [BitVec.ofNat 32 (2 ^ 2), d.cycle, 0]
      | .ruleCheck l r =>
        [BitVec.ofNat 32 (2 * 2 ^ 2 + 2 ^ 5 + 2 ^ 6 + l.val * 2 ^ 8), d.cycle, BitVec.ofNat 32 r.val]
      | .curveCheck l c n =>
        [BitVec.ofNat 32 (3 * 2 ^ 2 + 2 ^ 5 + 2 ^ 6 + l.val * 2 ^ 8), d.cycle,
          BitVec.ofNat 32 (c.val + n * 2 ^ 8)]
      | .playlistCheck l e =>
        [BitVec.ofNat 32 (4 * 2 ^ 2 + 2 ^ 5 + 2 ^ 6 + l.val * 2 ^ 8), d.cycle, BitVec.ofNat 32 e]
    latchPayload k = match k.state with
      | .empty => words 0 [0, 0, 0]
      | .held d => words 1 (body d)
      | .heldNested d => words 2 (body d)) ∧
  ∀ (s : State) (p : Place) (rest : List Place), Headed s p rest →
    let u := settle s
    let reply : Reply := ⟨.done, p.tag, p.code, latchPayload s.latch⟩
    (CarriedOut .readLatch p → exec .readLatch s = .next (replied u p rest reply)) ∧
    (CarriedOut .clearLatch p →
      exec .clearLatch s = .next (replied { u with latch := ⟨.empty, 0, 0⟩ } p rest reply))

/-- SET_REPORTING refuses a count above 4 or a lane above 23 and otherwise replaces the silence limit,
clamped to 10 to 65,535, the enable mask and the tap lane set, each lane kept once; a limit already
reached in UP takes the link to LOST at once (R153, R177, R178). The model's choices: the tap list word of
the reply (log 16), and the 7 bits of the mask that are kept and returned (log 36). -/
def Obligations.ReportingIsReplaced : Prop :=
  ∀ (s : State) (p : Place) (rest : List Place), Headed s p rest → CarriedOut .setReporting p →
    let u := settle s
    let raw := (p.payload.getD 0 0).toNat
    let mask : BitVec 7 := (p.payload.getD 1 0).setWidth 7
    let list := (p.payload.getD 2 0).toNat
    let count := list / 2 ^ 20 % 8
    let named := ([list % 32, list / 2 ^ 5 % 32, list / 2 ^ 10 % 32, list / 2 ^ 15 % 32]).take count
    let limit := max 10 (min raw 65535)
    (4 < count ∨ (∃ n ∈ named, 23 < n) →
      exec .setReporting s = .next (replied u p rest ⟨.badValue, p.tag, p.code, []⟩)) ∧
    (∀ lanes : List LaneId, count ≤ 4 → named = lanes.map Fin.val →
      let kept := lanes.eraseDups
      let v := { u with
        link := { u.link with silenceLimit := limit }
        ret := { u.ret with mask := mask, tapLanes := kept } }
      let reply : Reply := ⟨if raw = limit ∧ lanes.Nodup then .done else .adjusted, p.tag, p.code,
        [BitVec.ofNat 32 limit, BitVec.ofNat 32 mask.toNat, tapListWord kept]⟩
      (¬(s.link.state = .up ∧ limit * 1000 ≤ s.now - s.link.lastMark) →
        exec .setReporting s = .next (replied v p rest reply)) ∧
      (s.link.state = .up ∧ limit * 1000 ≤ s.now - s.link.lastMark →
        exec .setReporting s = .next (replied
          (offerNotice { v with link := { v.link with state := .lost } } .linkLost
            [s.link.currentCycle, BitVec.ofNat 32 limit])
          p rest reply)))

/-- RESET makes the soft reset at every block at once and is answered after it: all lanes OFF, rules
LOADED, counters 0, notices and taps emptied, the latch EMPTY, the window invalid; configurations,
playlists, last-sent words, replies, curves, blocks, fills, TMC and trace memory kept (R13, R110, R179). A
HARD error that a lane found before it, at a playlist entry, and that reaches the latch after it is held with
its LATCH_SET notice, and its halt order leaves its lane OFF (R138, R140, R147; log 43). Where the reset is
taken before all that a tick or the end of an activation sends has arrived, the notices and TAP words that
arrive after it join the emptied queues, and are kept (R164, R179; log 43). -/
def Obligations.SoftResetKeepsItsTables : Prop :=
  ∀ (s : State) (p : Place) (rest : List Place), Headed s p rest → CarriedOut .reset p →
    let u := settle s
    ∃ v, exec .reset s = .next (replied v p rest ⟨.done, p.tag, p.code, []⟩) ∧
      (∀ l, v.lane l = { u.lane l with
        state := .off
        pacing := .stopped
        live := ⟨0, false, false⟩
        prev := none
        history := []
        counters := ⟨0, 0, 0, 0, 0, 0, 0⟩
        fetchPos := .none
        queue := []
        fetch := (u.lane l).fetch.map fun f => { f with voided := true }
        debt := 0
        counted := []
        chain := []
        port := { (u.lane l).port with pending := none } }) ∧
      (∀ r, v.rule r = { u.rule r with
        state := if (u.rule r).state = .vacant then .vacant
          else if (u.rule r).state = .spent then .spent else .loaded
        delayCount := 0
        durationCount := 0
        remaining := .count 0
        noise := 1
        ramp := 0
        activations := 0
        missed := 0
        applied := 0
        baseSeen := false
        attemptDue := false
        endDue := false
        late := false }) ∧
      (∀ b, v.block b = { u.block b with inUse := 0 }) ∧
      v = { u with
        lanes := v.lanes
        rules := v.rules
        dir := { u.dir with blocks := v.dir.blocks }
        link := { u.link with badWords := 0, stray := 0, badLane := 0, cycleJumps := 0, overrun := 0 }
        ret := { u.ret with
          notices := []
          taps := []
          tapLanes := []
          noticesDropped := 0
          tapsDropped := 0 }
        latch := ⟨.empty, 0, 0⟩
        cmd := { u.cmd with window := none } } ∧
      (∀ (event late : Instr) (a : Arrived),
        let quiet : State := { s with ret := { s.ret with
          notices := [], taps := [], noticesDropped := 0, tapsDropped := 0 } }
        (∃ l, event = .timedTick ⟨l, {}⟩ ∧ late = .timedTick ⟨l, { reset := some a }⟩ ∧
          ∃ next period, (s.lane l).pacing = .timed next period ∧
            (laneTick .whole ((quiet.reach next).modLane l fun x =>
              { x with pacing := .timed (next + period) period }) l).2 = []) ∨
        (∃ r, event = .ruleDurationEnd ⟨r, none⟩ ∧ late = .ruleDurationEnd ⟨r, some a⟩ ∧
          (s.rule r).state = .active ∧ (s.rule r).endDue = true) →
          ∃ e z, exec event quiet = .next e ∧ exec .reset e = .next z ∧
            let sent := (settle e).ret
            let noticed := (sent.notices.drop a.notices).foldl (fun v n => offerNotice v n.kind n.payload) z
            let kept := (sent.taps.drop a.taps).foldl offerTap noticed
            exec late s = .next { kept with ret := { kept.ret with
              noticesDropped := min (kept.ret.noticesDropped + sent.noticesDropped) 4294967295
              tapsDropped := min (kept.ret.tapsDropped + sent.tapsDropped) 4294967295 } }) ∧
      ∀ (l : LaneId) (place : Position) (e : StoredEntry),
        let x := u.lane l
        x.state.inPlay = true → x.fetch = none → x.entryLead < 2 → 0 < x.freePlaces →
        x.fetchPos = .at place → x.playlist[place.entry]? = some e → entryPasses u e = false →
          let w := replied v p rest ⟨.done, p.tag, p.code, []⟩
          exec (.fetchIssue ⟨l, some {}⟩) s = .next (offerNotice
            { w with latch := ⟨.held ⟨.playlistCheck l place.entry, s.link.currentCycle⟩, 0, 0⟩ } .latchSet
            [BitVec.ofNat 32 (1 + 4 * 2 ^ 2 + 2 ^ 5 + 2 ^ 6 + l.val * 2 ^ 8), s.link.currentCycle,
              BitVec.ofNat 32 place.entry, 0, 0])

/-! ## Lanes, playlists and curves -/

/-- A CONFIG_LANE payload has an undefined value where SOURCE or FALLBACK is 3, WORD_LENGTH is not one of its
five values, or CURVE is neither 0 to 15 nor 31. Of any other payload each field is taken as it is, but that
CYCLE_DIVIDER is brought to 1 to 64, PORT_DIVIDER to 255, REST_WORD to 2^L − 1, DIVISOR to 10 and then above
the word time, which each make it ADJUSTED, and a GATE_SEED of 0 to 1, which does not (R1 to R3, R190).
CONFIG_LANE refuses a lane above 23, a lane that is not OFF and a record with an undefined value, in this
order; it takes any other record, brought into range, and changes nothing else (R1 to R3; the payload of an
ADJUSTED reply is log 17's). -/
def Obligations.ConfigurationIsTakenInRange : Prop :=
  (∀ payload : List Word,
    let bits (word low count : Nat) : Nat := (payload.getD word 0).toNat / 2 ^ low % 2 ^ count
    let source := bits 3 0 2
    let wordLength := bits 3 3 5
    let fallback := bits 3 10 2
    let curve := bits 3 13 5
    let divisor := bits 1 0 16
    let cycleDivider := bits 3 18 7
    let portDivider := bits 2 20 10
    let restWord := bits 2 0 20
    let seed := bits 1 16 16
    (decodeConfig payload = none ↔ source = 3 ∨ fallback = 3 ∨ wordLength ∉ [10, 12, 14, 16, 20] ∨
      (16 ≤ curve ∧ curve ≠ 31)) ∧
    ∀ c adjusted, decodeConfig payload = some (c, adjusted) →
      let sent := if bits 3 9 1 = 0 then wordLength else if wordLength ≤ 12 then 24 else 32
      let time := (sent + 2) * (2 * (min portDivider 255 + 1) * 10)
      let least := max divisor 10
      c.source = (if source = 0 then .live else if source = 1 then .replay else .constant) ∧
      c.constantCode = ((payload.getD 0 0).setWidth 24).toInt ∧
      c.timing = (if bits 3 2 1 = 0 then .timed else .cycle) ∧
      c.divisor = (if least * 100 ≤ time then time / 100 + 1 else least) ∧
      c.cycleDivider = max 1 (min cycleDivider 64) ∧
      c.wordLength.bits = wordLength ∧
      c.bitOrder = (if bits 3 8 1 = 0 then .msbFirst else .lsbFirst) ∧
      c.portKind = (if bits 3 9 1 = 0 then .level else .frame) ∧
      c.portDivider = min portDivider 255 ∧
      c.restWord.toNat = min restWord (2 ^ wordLength - 1) ∧
      c.fallback = (if fallback = 0 then .hold else if fallback = 1 then .rest else .live) ∧
      c.curve.map Fin.val = (if curve = 31 then none else some curve) ∧
      c.underrun = (if bits 3 12 1 = 0 then .slip else .keepPace) ∧
      c.gateSeed.toNat = (if seed = 0 then 1 else seed) ∧
      (adjusted = true ↔ c.divisor ≠ divisor ∨ c.cycleDivider ≠ cycleDivider ∨
        c.portDivider ≠ portDivider ∨ c.restWord.toNat ≠ restWord)) ∧
  ∀ (s : State) (p : Place) (rest : List Place), Headed s p rest → CarriedOut .configLane p →
    let u := settle s
    let answer (v : State) (status : Status) (words : List Word) : Host.Outcome State Fault Refusal :=
      .next (replied v p rest ⟨status, p.tag, p.code, words⟩)
    (24 ≤ p.index → exec .configLane s = answer u .badIndex []) ∧
    (∀ l : LaneId, p.index = l.val →
      ((u.lane l).state ≠ .off → exec .configLane s = answer u .laneBusy []) ∧
      ((u.lane l).state = .off → decodeConfig p.payload = none →
        exec .configLane s = answer u .badValue []) ∧
      (∀ c adjusted, (u.lane l).state = .off → decodeConfig p.payload = some (c, adjusted) →
        c.valid ∧
        exec .configLane s = answer (u.setLane l { u.lane l with config := c })
          (if adjusted then .adjusted else .done) (if adjusted then encodeConfig c else [])))

/-- SET_PLAYLIST replaces the whole playlist of an OFF lane with entries that pass their checks, or
refuses it with the number of the first entry that fails; an entry is measured against its block when that
is FILLING or READY (R45, R46; the order of the entry checks is log 20's). The checks
of an entry's own words fail where END is LOOP(k) with k not below the number of entries or none of its values,
STEP is outside 1 to 16, or FIRST_ROW is above LAST_ROW (R46). An entry in range is read back from its three
words of the SET_PLAYLIST layout as it was (R45, R190). -/
def Obligations.PlaylistIsReplacedWhole : Prop :=
  (∀ (n : Nat) (e : PlaylistEntry), e.column < 16 → e.firstRow ≤ e.lastRow → e.lastRow < 2 ^ 29 →
    1 ≤ e.step → e.step ≤ 16 → e.passes < 65536 → (∀ k, e.ending = .loop k → k < n ∧ k < 16) →
      let direction : Nat := match e.direction with
        | .forward => 0
        | .reverse => 1
      let ending : Nat := match e.ending with
        | .next => 16
        | .loop k => k
        | .stop => 17
      decodeEntry n (BitVec.ofNat 32 (e.firstRow + direction * 2 ^ 29 + e.step / 8 * 2 ^ 30))
        (BitVec.ofNat 32 (e.lastRow + e.step % 8 * 2 ^ 29))
        (BitVec.ofNat 32 (e.passes + e.block.val * 2 ^ 16 + e.column * 2 ^ 23 + ending * 2 ^ 27)) =
        some e) ∧
  (∀ (n : Nat) (a b c : Word),
    let ending := c.toNat / 2 ^ 27
    let step := a.toNat / 2 ^ 30 * 8 + b.toNat / 2 ^ 29
    decodeEntry n a b c = none ↔ 17 < ending ∨ (ending < 16 ∧ n ≤ ending) ∨ step = 0 ∨ 16 < step ∨
      b.toNat % 2 ^ 29 < a.toNat % 2 ^ 29) ∧
  ∀ (s : State) (p : Place) (rest : List Place), Headed s p rest → CarriedOut .setPlaylist p →
    let u := settle s
    let answer (v : State) (status : Status) (words : List Word) : Host.Outcome State Fault Refusal :=
      .next (replied v p rest ⟨status, p.tag, p.code, words⟩)
    let entry (k : Nat) : Option PlaylistEntry :=
      decodeEntry (p.payload.length / 3) (p.payload.getD (3 * k) 0) (p.payload.getD (3 * k + 1) 0)
        (p.payload.getD (3 * k + 2) 0)
    let passes (k : Nat) (e : PlaylistEntry) : Prop :=
      entry k = some e ∧ ((u.block e.block).state = .vacant ∨
        (e.column < (u.block e.block).columns ∧ e.lastRow < (u.block e.block).rows))
    (24 ≤ p.index → exec .setPlaylist s = answer u .badIndex []) ∧
    (∀ l : LaneId, p.index = l.val →
      (p.payload.length % 3 ≠ 0 ∨ 48 < p.payload.length →
        exec .setPlaylist s = answer u .badLength []) ∧
      (p.payload.length % 3 = 0 → p.payload.length ≤ 48 →
        ((u.lane l).state ≠ .off → exec .setPlaylist s = answer u .laneBusy []) ∧
        ((u.lane l).state = .off →
          (∀ es : List PlaylistEntry, es.length = p.payload.length / 3 →
            (∀ k e, es[k]? = some e → passes k e) →
              exec .setPlaylist s = answer
                (u.setLane l { u.lane l with playlist := es.map fun e => ⟨e, true⟩ }) .done []) ∧
          (∀ k, k < p.payload.length / 3 → (∀ e, ¬passes k e) → (∀ j < k, ∃ e, passes j e) →
            exec .setPlaylist s = answer u .badValue [BitVec.ofNat 32 k]))))

/-- START_LANES primes every named lane that passes its checks: it starts counting on the blocks of its
playlist, whatever its SOURCE, but for VACANT descriptors (log 11), stands at the start of its playlist, and
triggers its ARMED IMMEDIATE rules; every other lane is left as it was, and each named lane has its result in
lane order (R4, R5, R34, R38, R51, R94). A start is late when its cycle is already reached, also exactly 2³¹
ahead (R6, log 44). -/
def Obligations.StartPrimesTheLanesThatPass : Prop :=
  ∀ (s : State) (p : Place) (rest : List Place), Headed s p rest → CarriedOut .startLanes p →
    let u := settle s
    let mask := p.payload.getD 0 0
    let start := p.payload.getD 1 0
    let late := decide ((u.link.currentCycle - start).toNat ≤ 2 ^ 31)
    let named := (List.finRange 24).filter fun l => mask.getLsbD l.val
    let result (l : LaneId) : Status :=
      let x := u.lane l
      if x.state ≠ .off then .laneBusy
      else if x.port.present = false then .noPort
      else if x.config.source = .replay ∧ (x.playlist = [] ∨
          ∃ e ∈ x.playlist, (u.block e.entry.block).state ≠ .ready) then .notReady
      else .done
    let taken := named.filter fun l => result l = .done
    (mask = 0 ∨ 2 ^ 24 ≤ mask.toNat →
      exec .startLanes s = .next (replied u p rest ⟨.badValue, p.tag, p.code, []⟩)) ∧
    (mask ≠ 0 → mask.toNat < 2 ^ 24 →
      ∃ v, exec .startLanes s = .next (replied v p rest
          ⟨if taken = [] then (named.map result).headD .badValue else if late then .late else .done,
            p.tag, p.code, named.map fun l => BitVec.ofNat 32 (result l).code⟩) ∧
        (∀ l, l ∉ taken → v.lane l = u.lane l) ∧
        (∀ l ∈ taken, v.lane l = { u.lane l with
          state := .primed
          startCycle := start
          late := late
          pacing := .stopped
          markCount := 0
          sentSinceStart := false
          prev := none
          history := []
          gate := if (u.lane l).config.gateSeed = 0 then 1 else (u.lane l).config.gateSeed
          debt := 0
          fetchPos := if (u.lane l).config.source = .replay then
              match (u.lane l).playlist with
              | [] => .none
              | e :: _ => .at ⟨0, 1, if e.entry.direction = .forward then e.entry.firstRow
                  else e.entry.lastRow⟩
            else .none
          counted := ((u.lane l).playlist.map fun e => e.entry.block).eraseDups.filter fun b =>
            (u.block b).state ≠ .vacant }) ∧
        (∀ r, v.rule r =
          if (u.rule r).state = .armed ∧ (u.rule r).fields.trigger = .immediate ∧
              ∃ l ∈ taken, (u.rule r).fields.lane = l.val then
            { u.rule r with
              state := .triggered
              delayCount := (u.rule r).fields.delay
              baseSeen := false
              attemptDue := decide ((u.rule r).fields.delay = 0)
              late := false }
          else u.rule r) ∧
        (∀ b, v.block b = { u.block b with
          inUse := (u.block b).inUse + (taken.filter fun l =>
            (u.block b).state ≠ .vacant ∧ ∃ e ∈ (u.lane l).playlist, e.entry.block = b).length }) ∧
        v = { u with lanes := v.lanes, rules := v.rules, dir := { u.dir with blocks := v.dir.blocks } })

/-- STOP_LANES NOW, and DRAIN of a lane that is not a RUNNING or DRAINING REPLAY lane, takes every named
lane in play OFF: its pending word, queue, debt and chain are dropped, its fetch voided, its TRIGGERED and
ACTIVE rules returned to ARMED, out of every chain, its IN_USE share given back. DRAIN lets a RUNNING REPLAY
lane play to the end of its pass. Lanes OFF or HALTED stay as they are, and no notice is sent (R7, R8, R38,
R65, R66, R109). The mode is NOW or DRAIN by its code, and an undefined one is refused (R169), by either row
(log 4: the model's choice). -/
def Obligations.StopTakesLanesOutOfPlay : Prop :=
  ∀ (s : State) (p : Place) (rest : List Place), Headed s p rest → CarriedOut .stopLanes p →
    let u := settle s
    let mask := p.payload.getD 0 0
    let mode := (p.payload.getD 1 0).toNat
    let named := (List.finRange 24).filter fun l => mask.getLsbD l.val
    let result (l : LaneId) : Status := if (u.lane l).state = .halted then .laneBusy else .done
    let drains (l : LaneId) : Prop := mode = 1 ∧
      (((u.lane l).state = .running ∧ (u.lane l).config.source = .replay) ∨
        (u.lane l).state = .draining)
    let inPlay (l : LaneId) : Prop := (u.lane l).state = .primed ∨ (u.lane l).state = .running ∨
      (u.lane l).state = .draining
    let stops (l : LaneId) : Prop := l ∈ named ∧ inPlay l ∧ ¬drains l
    let returns (r : RuleId) : Prop := ∃ l, stops l ∧ (r ∈ (u.lane l).chain ∨
      ((u.rule r).fields.lane = l.val ∧
        ((u.rule r).state = .triggered ∨ (u.rule r).state = .active)))
    let carriedOut (row : Instr) : Prop :=
      ∃ v, exec row s = .next (replied v p rest
          ⟨if ∃ l ∈ named, result l = .done then .done else .laneBusy, p.tag, p.code,
            named.map fun l => BitVec.ofNat 32 (result l).code⟩) ∧
        (∀ l, stops l → v.lane l = { u.lane l with
          state := .off
          pacing := .stopped
          queue := []
          fetch := (u.lane l).fetch.map fun f => { f with voided := true }
          fetchPos := .none
          debt := 0
          counted := []
          chain := []
          port := { (u.lane l).port with pending := none } }) ∧
        (∀ stays : RuleId → Bool, (∀ r, stays r = true ↔ ¬returns r) →
          (∀ l, l ∈ named → drains l → (u.lane l).state = .running →
            v.lane l = { (u.lane l).drain with chain := (u.lane l).chain.filter stays }) ∧
          (∀ l, ¬stops l → ¬(l ∈ named ∧ drains l ∧ (u.lane l).state = .running) →
            v.lane l = { u.lane l with chain := (u.lane l).chain.filter stays })) ∧
        (∀ r,
          (returns r →
            v.rule r = { u.rule r with
              state := .armed
              delayCount := 0
              durationCount := 0
              ramp := 0
              baseSeen := false
              attemptDue := false
              endDue := false }) ∧
          (¬returns r → v.rule r = u.rule r)) ∧
        (∀ b (share : LaneId → Nat),
          (∀ l, (stops l → share l = (u.lane l).counted.count b) ∧ (¬stops l → share l = 0)) →
            v.block b = { u.block b with
              inUse := (u.block b).inUse - ((List.finRange 24).map share).sum }) ∧
        v = { u with lanes := v.lanes, rules := v.rules, dir := { u.dir with blocks := v.dir.blocks } }
    let refused (row : Instr) : Prop :=
      exec row s = .next (replied u p rest ⟨.badValue, p.tag, p.code, []⟩)
    (2 ≤ mode → refused .stopLanesNow ∧ refused .stopLanesDrain) ∧
    (mask = 0 ∨ 2 ^ 24 ≤ mask.toNat →
      (mode = 0 → refused .stopLanesNow) ∧ (mode = 1 → refused .stopLanesDrain)) ∧
    (mask ≠ 0 → mask.toNat < 2 ^ 24 →
      (mode = 0 → carriedOut .stopLanesNow) ∧ (mode = 1 → carriedOut .stopLanesDrain))

/-- Patch truncation drops a lane's queue from its first written word on, or a fetch in flight that holds
one, and takes the fetch position back to the first word dropped (R63). At DRAIN the queue ends with the
pass being played: words beyond it are removed and a fetch for a later pass is voided, or, where the end
of the pass is still to be fetched, fetching goes on to it (R65). -/
def Obligations.ReplayQueueIsCut : Prop :=
  (∀ (x : Lane) (written : List Nat),
    let y := x.truncate written;
    (∀ before q after, x.queue = before ++ q :: after → q.place.address ∈ written →
      (∀ w ∈ before, w.place.address ∉ written) →
        y = { x with
          queue := before
          fetch := x.fetch.map fun f => { f with voided := true }
          fetchPos := .at q.place.position }) ∧
    ((∀ q ∈ x.queue, q.place.address ∉ written) →
      (∀ w rest, x.liveFetchWords = w :: rest → (∃ v ∈ w :: rest, v.address ∈ written) →
        y = { x with
          fetch := x.fetch.map fun f => { f with voided := true }
          fetchPos := .at w.position }) ∧
      ((∀ w ∈ x.liveFetchWords, w.address ∉ written) → y = x))) ∧
  (∀ x : Lane,
    let y := x.drain;
    (∀ before q after, x.queue = before ++ q :: after → q.place.endOfPass = true →
      (∀ w ∈ before, w.place.endOfPass = false) →
        y = { x with
          state := .draining
          queue := before ++ [q]
          fetch := x.fetch.map fun f => { f with voided := true }
          fetchPos := .ended }) ∧
    ((∀ q ∈ x.queue, q.place.endOfPass = false) →
      ((∃ w ∈ x.liveFetchWords, w.endOfPass = true) →
        y = { x with state := .draining, fetchPos := .ended }) ∧
      ((∀ w ∈ x.liveFetchWords, w.endOfPass = false) → y = { x with state := .draining })))

/-- RESET_LANE takes its lane OFF from any state and clears its counters, history, live register and
previous sensed code; the configuration, the playlist and the last-sent word are kept and no notice is
sent. Its TRIGGERED and ACTIVE rules, and those of its chain, return to ARMED, out of every chain, and its
IN_USE share is given back (R12, R38, R66, R109). -/
def Obligations.ResetLaneClearsItsRecords : Prop :=
  ∀ (s : State) (p : Place) (rest : List Place), Headed s p rest → CarriedOut .resetLane p →
    let u := settle s
    (24 ≤ p.index → exec .resetLane s = .next (replied u p rest ⟨.badIndex, p.tag, p.code, []⟩)) ∧
    (∀ l : LaneId, p.index = l.val →
      let returns (r : RuleId) : Prop := r ∈ (u.lane l).chain ∨ ((u.rule r).fields.lane = l.val ∧
        ((u.rule r).state = .triggered ∨ (u.rule r).state = .active))
      ∃ v, exec .resetLane s = .next (replied v p rest ⟨.done, p.tag, p.code, []⟩) ∧
        v.lane l = { u.lane l with
          state := .off
          pacing := .stopped
          live := ⟨0, false, false⟩
          prev := none
          history := []
          counters := ⟨0, 0, 0, 0, 0, 0, 0⟩
          queue := []
          fetch := (u.lane l).fetch.map fun f => { f with voided := true }
          fetchPos := .none
          debt := 0
          counted := []
          chain := []
          port := { (u.lane l).port with pending := none } } ∧
        (∀ stays : RuleId → Bool, (∀ r, stays r = true ↔ ¬returns r) → ∀ k, k ≠ l →
          v.lane k = { u.lane k with chain := (u.lane k).chain.filter stays }) ∧
        (∀ r,
          (returns r →
            v.rule r = { u.rule r with
              state := .armed
              delayCount := 0
              durationCount := 0
              ramp := 0
              baseSeen := false
              attemptDue := false
              endDue := false }) ∧
          (¬returns r → v.rule r = u.rule r)) ∧
        (∀ b, v.block b = { u.block b with
          inUse := (u.block b).inUse - (u.lane l).counted.count b }) ∧
        v = { u with lanes := v.lanes, rules := v.rules, dir := { u.dir with blocks := v.dir.blocks } })

/-- LOAD_CURVE replaces points one at a time from its first point on, each with a new check code, and none
beyond point 64; it is answered in the event in which it is taken, with the number of points written (R78,
R173; as one whole word by log 16). A tick among the replacements finds the first n points replaced and the
later ones as they were, or reads its upper point after m more; the next tick finds at least as many
replaced. At a mark among them each lane's tick reads at its own count, in the order the mark is taken (R79;
the events among are log 22's). Every point stands replaced after the last. -/
def Obligations.CurveLoadReplacesPoints : Prop :=
  ∀ (s : State) (p : Place) (rest : List Place), Headed s p rest → CarriedOut .loadCurve p →
    let u := settle s
    let number := (p.payload.getD 0 0).toNat / 2 ^ 24 % 2 ^ 5
    (∀ among, 16 ≤ number →
      exec (.loadCurve among) s = .next (replied u p rest ⟨.badIndex, p.tag, p.code, []⟩)) ∧
    (∀ among, number < 16 → 64 < p.index →
      exec (.loadCurve among) s = .next (replied u p rest ⟨.badValue, p.tag, p.code, []⟩)) ∧
    (∀ c : CurveId, number = c.val → p.index ≤ 64 →
      let values := p.payload.take (65 - p.index)
      let reply : Reply := ⟨if 65 < p.index + p.payload.length then .adjusted else .done, p.tag, p.code,
        [BitVec.ofNat 32 values.length]⟩
      let written (n : Nat) (v : State) : Prop :=
        (∀ (k : PointId) w, p.index ≤ k.val → (values.take n)[k.val - p.index]? = some w →
          v.point c k = ⟨w.setWidth 20, true⟩) ∧
        (∀ (d : CurveId) (k : PointId),
          (d ≠ c ∨ k.val < p.index ∨ (values.take n)[k.val - p.index]? = none) →
            v.point d k = u.point d k)
      (∃ v, exec (.loadCurve []) s = .next (replied v p rest reply) ∧
        written values.length v ∧ v = { u with curves := v.curves }) ∧
      (∀ among, ∃ v, exec (.loadCurve among) s = .next (replied v p rest reply) ∧
        written values.length v ∧ v.cmd = u.cmd ∧ v.mem = u.mem ∧ v.tmc = u.tmc) ∧
      (∀ (t : TickOf) (n : Nat), n ≤ values.length → t.within.low = n → t.within.high ≤ n →
        (∃ next period, (u.lane t.lane).pacing = .timed next period) →
          ∃ before after v, written n before ∧ before = { u with curves := before.curves } ∧
            exec (.timedTick t) before = .next after ∧
            exec (.loadCurve [.tick t]) s = .next (replied v p rest reply) ∧
            written values.length v ∧ v = { after with curves := v.curves } ∧
            ∀ (t₂ : TickOf) (m : Nat), n ≤ m → m ≤ values.length → t₂.within.low = m →
              t₂.within.high ≤ m →
              (∃ next period, (after.lane t₂.lane).pacing = .timed next period) →
                ∃ between last z, written m between ∧ between = { after with curves := between.curves } ∧
                  exec (.timedTick t₂) between = .next last ∧
                  exec (.loadCurve [.tick t, .tick t₂]) s = .next (replied z p rest reply) ∧
                  written values.length z ∧ z = { last with curves := z.curves }) ∧
      (∀ (number : Word) (order : List MarkTaker),
        let replaced (n : Nat) : State → State := replacePoints c p.index (values.take n)
        let marked := linkTakesMark (checkJump (settle u) number) number
        (∀ n, written n (replaced n u)) ∧
        (∀ (w : Within) (v : State) (l : LaneId), w.high ≤ w.low →
          tickWith replaced w v l = tickWith (fun _ z => z) w (replaced w.low v) l) ∧
        ∃ v, exec (.loadCurve [.mark number order]) s = .next (replied v p rest reply) ∧
          written values.length v ∧
          v = { (markOrder order).foldl (takeMark (tickWith replaced) number) marked with
            curves := v.curves }) ∧
      (∀ (l : LaneId) (n m next period : Nat) (o : OutCode),
        let x := u.lane l
        let e := x.config.constantCode
        n ≤ values.length → x.pacing = .timed next period → x.state = .running →
        x.config.source = .constant → x.chain = [] →
        (∀ r, (u.rule r).state ≠ .armed ∧ (u.rule r).state ≠ .triggered ∧ (u.rule r).endDue = false) →
          ∃ before later v, written n before ∧ before = { u with curves := before.curves } ∧
            written (n + m) later ∧
            (curveStageOver before later x.config.curve e = .code o →
              let w : OutCode := o >>> (20 - x.config.wordLength.bits)
              exec (.loadCurve [.tick ⟨l, { low := n, high := n + m }⟩]) s = .next (replied v p rest reply) ∧
              written values.length v ∧
              v = { handOver ((u.reach next).setLane l { x with
                  pacing := .timed (next + period) period
                  counters := { x.counters with ticks := countUp x.counters.ticks }
                  prev := some e
                  history := (w :: x.history).take 64 })
                l ⟨⟨w, .normal, false, false, .normal⟩, false, false⟩ with curves := v.curves })))

/-! ## The directory and trace commands -/

/-- DEFINE_BLOCK refuses in the order of its checks and otherwise makes the block FILLING, puts it at the
tail of the fill queue and, with an idle engine, issues the first fill write; DELETE_BLOCK refuses a block
that is VACANT or in use and otherwise makes it VACANT, takes it from the fill queue, discards the fill
write in hand of a head, and closes a window on it (R35 to R37, R43). -/
def Obligations.BlocksAreDefinedAndDeleted : Prop :=
  ∀ (s : State) (p : Place) (rest : List Place), Headed s p rest →
    let u := settle s
    let answer (v : State) (status : Status) : Host.Outcome State Fault Refusal :=
      .next (replied v p rest ⟨status, p.tag, p.code, []⟩)
    (CarriedOut .defineBlock p →
      let base := (p.payload.getD 0 0).toNat
      let rows := (p.payload.getD 1 0).toNat
      let columns := (p.payload.getD 2 0).toNat
      let fits : Prop := base % 16 = 0 ∧ 1 ≤ rows ∧ 1 ≤ columns ∧ columns ≤ 16 ∧
        base + rows * columns ≤ 536870912
      let overlaps (b : Block) : Prop := b.state ≠ .vacant ∧ b.base < base + rows * columns ∧
        base < b.base + b.rows * b.columns
      (128 ≤ p.index → exec .defineBlock s = answer u .badIndex) ∧
      (∀ b : BlockId, p.index = b.val →
        ((u.block b).state ≠ .vacant → exec .defineBlock s = answer u .blockBusy) ∧
        ((u.block b).state = .vacant →
          (¬fits → exec .defineBlock s = answer u .badValue) ∧
          (fits → (∃ k, overlaps (u.block k)) → exec .defineBlock s = answer u .overlap) ∧
          (fits → (∀ k, ¬overlaps (u.block k)) →
            (4 ≤ u.dir.fillQueue.length → exec .defineBlock s = answer u .fillBusy) ∧
            (u.dir.fillQueue.length < 4 →
              let v := { u with dir := { u.dir with
                blocks := u.dir.blocks.set b.val ⟨.filling, base, rows, columns, 0⟩
                fillQueue := u.dir.fillQueue ++ [b] } }
              (u.dir.fillReq ≠ .idle → exec .defineBlock s = answer v .done) ∧
              (u.dir.fillReq = .idle → u.dir.fillQueue = [] → u.dir.fillDone = 0 →
                let count := min 16 (rows * columns)
                exec .defineBlock s = answer { v with
                  dir := { v.dir with fillReq := .writing }
                  tmc := { v.tmc with requests := v.tmc.requests ++
                    [⟨.fill, (List.range count).map fun i => base + i, some (List.replicate count 0),
                      false, u.now, 0⟩] } } .done)))))) ∧
    (CarriedOut .deleteBlock p →
      (128 ≤ p.index → exec .deleteBlock s = answer u .badIndex) ∧
      (∀ b : BlockId, p.index = b.val →
        ((u.block b).state = .vacant → exec .deleteBlock s = answer u .noBlock) ∧
        ((u.block b).state ≠ .vacant → 0 < (u.block b).inUse →
          exec .deleteBlock s = answer u .blockBusy) ∧
        ((u.block b).state ≠ .vacant → (u.block b).inUse = 0 →
          let head := u.dir.fillQueue.head? = some b
          exec .deleteBlock s = answer { u with
            dir :=
              { blocks := u.dir.blocks.set b.val ⟨.vacant, 0, 0, 0, 0⟩
                fillQueue := u.dir.fillQueue.erase b
                fillDone := if head then 0 else u.dir.fillDone
                fillReq := if head ∧ u.dir.fillReq = .writing then .discarding else u.dir.fillReq }
            cmd := { u.cmd with window := match u.cmd.window with
              | none => none
              | some w => if w.block = b then none else some w } } .done)))

/-- WRITE_TRACE START opens a window clamped to its READY block, or is refused and leaves none; CONTINUE
needs a window and starts its wrap count from 0. The data words are walked through the window and issued
as writes, one gathering at a time, and the record is answered at once only if it has none (R39 to R43,
R169). The model's choices: the words of the reply (log 16), and that an undefined index is refused by either
row (log 4). -/
def Obligations.TraceWritesGoThroughTheWindow : Prop :=
  ∀ (s : State) (p : Place) (rest : List Place), Headed s p rest → CarriedOut .writeTrace p →
    let u := settle s
    let through (row : Instr) (w : Window) (data : List Word) (status : Status) : Prop :=
      let walk := walkWindow (u.block w.block) w data
      let v := { u with cmd := { u.cmd with window := some walk.2 } }
      let reply : Reply := ⟨status, p.tag, p.code,
        [BitVec.ofNat 32 data.length, BitVec.ofNat 32 walk.2.wraps, BitVec.ofNat 32 walk.2.row,
          BitVec.ofNat 32 walk.2.column]⟩
      (data = [] → exec row s = .next (replied v p rest reply)) ∧
      (∀ cells later, gather walk.1 = cells :: later →
        exec row s = .next (heldOn
          { v with tmc := { v.tmc with requests := v.tmc.requests ++
            [⟨.command, cells.map Prod.fst, some (cells.map Prod.snd), false, u.now, 0⟩] } }
          p rest (.write (cells :: later) reply)))
    (p.index = 0 →
      let refused (status : Status) : Prop := exec .writeTraceStart s = .next (replied
        { u with cmd := { u.cmd with window := none } } p rest ⟨status, p.tag, p.code, []⟩)
      let id := (p.payload.getD 0 0).toNat
      let r0 := (p.payload.getD 1 0).toNat
      let r1 := (p.payload.getD 2 0).toNat
      let c0 := (p.payload.getD 3 0).toNat
      let c1 := (p.payload.getD 4 0).toNat
      let flags := p.payload.getD 5 0
      (p.payload.length < 6 → refused .badLength) ∧
      (6 ≤ p.payload.length →
        (128 ≤ id → refused .badIndex) ∧
        (∀ k : BlockId, id = k.val →
          let b := u.block k
          let lastRow := b.rows - 1
          let lastColumn := b.columns - 1
          let window (order : WalkOrder) : Window :=
            ⟨k, min r0 lastRow, min r1 lastRow, min c0 lastColumn, min c1 lastColumn, order,
              flags.getLsbD 8, min r0 lastRow, min c0 lastColumn, 0⟩
          (b.state = .vacant → refused .noBlock) ∧
          (b.state = .filling → refused .notReady) ∧
          (b.state = .ready → 2 ≤ flags.toNat % 4 → refused .badValue) ∧
          (b.state = .ready → min r1 lastRow < min r0 lastRow ∨ min c1 lastColumn < min c0 lastColumn →
            refused .badValue) ∧
          (∀ order : WalkOrder, b.state = .ready →
            flags.toNat % 4 = (match order with | .rowMajor => 0 | .columnMajor => 1) →
            min r0 lastRow ≤ min r1 lastRow → min c0 lastColumn ≤ min c1 lastColumn →
              through .writeTraceStart (window order) (p.payload.drop 6)
                (if b.rows ≤ r0 ∨ b.rows ≤ r1 ∨ b.columns ≤ c0 ∨ b.columns ≤ c1 then .adjusted
                  else .done))))) ∧
    (p.index = 1 →
      (u.cmd.window = none → exec .writeTraceContinue s =
        .next (replied u p rest ⟨.noWindow, p.tag, p.code, []⟩)) ∧
      (∀ w, u.cmd.window = some w →
        through .writeTraceContinue { w with wraps := 0 } p.payload .done)) ∧
    (2 ≤ p.index →
      exec .writeTraceStart s = .next (replied u p rest ⟨.badValue, p.tag, p.code, []⟩) ∧
      exec .writeTraceContinue s = .next (replied u p rest ⟨.badValue, p.tag, p.code, []⟩))

/-- The words of one record visit the window's cells in walk order and wrap past its last cell, each stored
with its 30 data bits and with check bits that pass, or under POISON fail; the gatherings keep payload
order, each within one aligned group of 16 words and with no address twice, and each ends only at a word of
another group or at an address that it holds already (R26, R40, R41). -/
def Obligations.WalkVisitsTheWindow : Prop :=
  (∀ (b : Block) (w : Window) (data : List Word), w.firstRow ≤ w.row → w.row ≤ w.lastRow →
    w.firstColumn ≤ w.column → w.column ≤ w.lastColumn →
      let rows := w.lastRow - w.firstRow + 1
      let columns := w.lastColumn - w.firstColumn + 1
      let rowOfCell (n : Nat) : Nat := match w.order with
        | .rowMajor => w.firstRow + n / columns % rows
        | .columnMajor => w.firstRow + n % rows
      let columnOfCell (n : Nat) : Nat := match w.order with
        | .rowMajor => w.firstColumn + n % columns
        | .columnMajor => w.firstColumn + n / rows % columns
      let first : Nat := match w.order with
        | .rowMajor => (w.row - w.firstRow) * columns + (w.column - w.firstColumn)
        | .columnMajor => (w.column - w.firstColumn) * rows + (w.row - w.firstRow)
      let walk := walkWindow b w data
      walk.1 = data.mapIdx (fun n d =>
        (b.base + rowOfCell (first + n) * b.columns + columnOfCell (first + n),
          sealTraceWord w.poison d)) ∧
      walk.2 = { w with
        row := rowOfCell (first + data.length)
        column := columnOfCell (first + data.length)
        wraps := w.wraps + (first + data.length) / (rows * columns) } ∧
      (gather walk.1).flatten = walk.1 ∧
      (∀ g ∈ gather walk.1, g ≠ [] ∧ (g.map Prod.fst).Nodup ∧
        ∀ c ∈ g, ∀ d ∈ g, c.1 / 16 = d.1 / 16) ∧
      ∀ before g h later, gather walk.1 = before ++ g :: h :: later →
        ∀ c ∈ h.head?, ∃ d ∈ g, c.1 / 16 ≠ d.1 / 16 ∨ c.1 = d.1) ∧
  ∀ (poison : Bool) (d : Word), traceWordFails (sealTraceWord poison d) = poison ∧
    (sealTraceWord poison d).setWidth 30 = d.setWidth 30

/-- READ_TRACE refuses in the order of its checks and otherwise, for a READY block, issues the read of the
words in the first aligned group of 16, a count past the block's last word cut, and holds the unit on the
groups in ascending order, each with all its words (R44). -/
def Obligations.TraceReadsGoByGroups : Prop :=
  ∀ (s : State) (p : Place) (rest : List Place), Headed s p rest → CarriedOut .readTrace p →
    let u := settle s
    let row := (p.payload.getD 0 0).toNat
    let column := (p.payload.getD 1 0).toNat
    let count := (p.payload.getD 2 0).toNat
    let refused (status : Status) : Prop :=
      exec .readTrace s = .next (replied u p rest ⟨status, p.tag, p.code, []⟩)
    (128 ≤ p.index → refused .badIndex) ∧
    (∀ k : BlockId, p.index = k.val →
      let b := u.block k
      let fits : Prop := row < b.rows ∧ column < b.columns ∧ 1 ≤ count ∧ count ≤ 63
      (b.state = .vacant → refused .noBlock) ∧
      (b.state = .filling → refused .notReady) ∧
      (b.state = .ready → ¬fits → refused .badValue) ∧
      (b.state = .ready → fits →
        let first := row * b.columns + column
        let wanted := min count (b.rows * b.columns - first)
        ∃ (group : List Nat) (later : List (List Nat)),
          (group :: later).flatten = (List.range wanted).map (fun i => b.base + first + i) ∧
          (∀ g ∈ group :: later, g ≠ [] ∧ ∀ x ∈ g, ∀ y ∈ g, x / 16 = y / 16) ∧
          (∀ before g h after, group :: later = before ++ g :: h :: after →
            ∀ x ∈ g, ∀ y ∈ h, x / 16 ≠ y / 16) ∧
          exec .readTrace s = .next (heldOn
            { u with tmc := { u.tmc with requests := u.tmc.requests ++
              [⟨.command, group, none, false, u.now, 0⟩] } }
            p rest (.read (group :: later) [] (decide (wanted < count)) false))))

/-! ## Rules -/

/-- A LOAD_RULE payload is refused BAD_VALUE where LANE or WATCH is above 23, a kind, a qualifier or a
trigger's value is not one that R86 gives it, ON_RULE names the rule's own index, or a parameter that the
action uses is outside its range (R89, R116, R190; whole words are judged, log 19). Of any other each field is
taken as it is, but for a FREEZE rule's INTERMITTENCY, which becomes 0 and makes it ADJUSTED unless it was 0
(R89; NOTIFY's code is log 15's). LOAD_RULE refuses an index above 255, a rule that is ARMED, TRIGGERED or ACTIVE and an undefined record,
in this order, and otherwise stores the record in range, LOADED, with every working value and counter
cleared; CLEAR_RULE refuses the same rules and otherwise makes the rule VACANT; no other rule is touched
(R86, R89, R90; the payload of an ADJUSTED reply is log 17's). -/
def Obligations.RulesAreLoadedAndCleared : Prop :=
  (∀ (own : RuleId) (payload : List Word),
    let word (k : Nat) : Nat := (payload.getD k 0).toNat
    let bits (k low count : Nat) : Nat := word k / 2 ^ low % 2 ^ count
    let code (k : Nat) : Int := ((payload.getD k 0).setWidth 24).toInt
    let action := bits 1 27 5
    let trigger := bits 1 24 3
    let qualifier := bits 2 24 8
    let badTrigger : Prop := 5 < trigger ∨ (trigger = 2 ∧ 16 < qualifier) ∨
      (trigger = 3 ∧ 2 < qualifier) ∨
      (trigger = 4 ∧ (word 3 = own.val ∨ 255 < word 3 ∨ 1 < qualifier)) ∨ (trigger = 5 ∧ 7 < word 3)
    let badAction : Prop := 17 < action ∨ (action = 3 ∧ (8388607 < word 4 ∨ 8388607 < word 5)) ∨
      (action = 4 ∧ 8388607 < word 5) ∨ (action = 5 ∧ code 5 < code 4) ∨
      (action = 7 ∧ (1048575 < word 4 ∨ 1048575 < word 5)) ∨
      ((action = 8 ∨ action = 9) ∧ 1048575 < word 4) ∨ (action = 13 ∧ (word 4 = 0 ∨ 64 < word 4)) ∨
      (action = 14 ∧ (word 4 = 0 ∨ 3 < word 4)) ∨ (action = 17 ∧ (word 4 = 0 ∨ 14 < word 4))
    (decodeRule own.val payload = none ↔
      23 < bits 0 0 5 ∨ 23 < bits 0 5 5 ∨ badTrigger ∨ badAction) ∧
    ∀ f adjusted, decodeRule own.val payload = some (f, adjusted) →
      f.lane = bits 0 0 5 ∧ f.watch = bits 0 5 5 ∧ f.group = bits 0 10 4 ∧ f.priority = bits 0 14 4 ∧
      f.unit = (if bits 0 18 1 = 0 then .ticks else .cycles) ∧
      f.notify = decide (bits 0 19 1 = 0) ∧
      f.intermittency = (if action = 12 then 0 else bits 0 20 8) ∧
      f.delay = bits 1 0 16 ∧ f.repeats = bits 1 16 8 ∧ f.duration = bits 2 0 24 ∧
      (adjusted = true ↔ action = 12 ∧ bits 0 20 8 ≠ 0) ∧
      (trigger = 0 → f.trigger = .immediate) ∧
      (trigger = 1 → f.trigger = .atCycle (payload.getD 3 0)) ∧
      (trigger = 2 → f.trigger = .onMark (if qualifier = 16 then none else some qualifier)) ∧
      (trigger = 3 → f.trigger = .onLevel (code 3)
        (if qualifier = 0 then .rising else if qualifier = 1 then .falling else .either)) ∧
      (trigger = 4 → ∃ r : RuleId, r.val = word 3 ∧
        f.trigger = .onRule r (if qualifier = 0 then .active else .ended)) ∧
      (trigger = 5 → f.trigger = .onCommand (word 3)) ∧
      (action = 0 → f.action = .stuck (code 4)) ∧
      (action = 1 → f.action = .offset (code 4)) ∧
      (action = 2 → f.action = .gain ((payload.getD 4 0).setWidth 16).toInt (code 5)) ∧
      (action = 3 → f.action = .noise (word 4) (word 5)) ∧
      (action = 4 → f.action = .ramp (code 4) (word 5)) ∧
      (action = 5 → f.action = .clamp (code 4) (code 5)) ∧
      (action = 6 → f.action = .invert) ∧
      (action = 7 → f.action = .force ((payload.getD 4 0).setWidth 20) ((payload.getD 5 0).setWidth 20)) ∧
      (action = 8 → f.action = .flip ((payload.getD 4 0).setWidth 20)) ∧
      (action = 9 → f.action = .codeStuck ((payload.getD 4 0).setWidth 20)) ∧
      (action = 10 → f.action = .orderSwap) ∧
      (action = 11 → f.action = .drop) ∧
      (action = 12 → f.action = .freeze) ∧
      (action = 13 → f.action = .delay (word 4)) ∧
      (∀ st : LineState, action = 14 → word 4 = lineCode st → f.action = .line st) ∧
      (action = 15 → f.action = .checkBad) ∧
      (action = 16 → f.action = .seqHold) ∧
      (action = 17 → f.action = .seqJump (word 4))) ∧
  ∀ (s : State) (p : Place) (rest : List Place), Headed s p rest →
    let u := settle s
    let answer (v : State) (status : Status) (words : List Word) : Host.Outcome State Fault Refusal :=
      .next (replied v p rest ⟨status, p.tag, p.code, words⟩)
    let busy (r : RuleId) : Prop := (u.rule r).state = .armed ∨ (u.rule r).state = .triggered ∨
      (u.rule r).state = .active
    let cleared (state : RuleState) (f : RuleFields) : Rule :=
      ⟨state, f, true, 0, 0, .count 0, 1, 0, 0, 0, 0, false, false, false, false⟩
    (CarriedOut .loadRule p →
      (256 ≤ p.index → exec .loadRule s = answer u .badIndex []) ∧
      (∀ r : RuleId, p.index = r.val →
        (busy r → exec .loadRule s = answer u .ruleBusy []) ∧
        (¬busy r → decodeRule r.val p.payload = none → exec .loadRule s = answer u .badValue []) ∧
        (∀ f adjusted, ¬busy r → decodeRule r.val p.payload = some (f, adjusted) →
          f.valid r.val ∧
          exec .loadRule s = answer (u.setRule r (cleared .loaded f))
            (if adjusted then .adjusted else .done) (if adjusted then encodeRule f else [])))) ∧
    (CarriedOut .clearRule p →
      (256 ≤ p.index → exec .clearRule s = answer u .badIndex []) ∧
      (∀ r : RuleId, p.index = r.val →
        (busy r → exec .clearRule s = answer u .ruleBusy []) ∧
        (¬busy r → exec .clearRule s = answer (u.setRule r
          (cleared .vacant ⟨0, 0, 0, 0, .stuck 0, .immediate, .ticks, 0, 0, 0, 0, true⟩)) .done [])))

/-- ARM arms one rule or every LOADED or SPENT rule of a group: REMAINING from REPEATS, counters kept, an
IMMEDIATE rule of a lane in play triggered at once; the reply carries how many, LATE where an AT_CYCLE
number was already reached, which the rule keeps for the next mark (R91, R94, R95, R169; log 46). The model's choices: the count as one whole word (log 16),
and that an undefined form is refused by either row (log 4). -/
def Obligations.ArmingReloadsRules : Prop :=
  ∀ (s : State) (p : Place) (rest : List Place), Headed s p rest → CarriedOut .arm p →
    let u := settle s
    let form := (p.payload.getD 0 0).toNat
    let refused (row : Instr) (status : Status) : Prop :=
      exec row s = .next (replied u p rest ⟨status, p.tag, p.code, []⟩)
    let armed (x : Rule) : Rule :=
      let y := { x with
        state := .armed
        remaining := if x.fields.repeats = 0 then .unlimited else .count x.fields.repeats
        delayCount := 0
        baseSeen := false
        attemptDue := false
        endDue := false
        late := decide (∃ n, x.fields.trigger = .atCycle n ∧ (u.link.currentCycle - n).toNat < 2 ^ 31) }
      if x.fields.trigger = .immediate ∧ laneInPlay u x.fields.lane = true then
        { y with
          state := .triggered
          delayCount := x.fields.delay
          attemptDue := decide (x.fields.delay = 0)
          late := false }
      else y
    let arms (row : Instr) (rules : List RuleId) : Prop :=
      ∃ v, exec row s = .next (replied v p rest
          ⟨if ∃ r ∈ rules, ∃ n, (u.rule r).fields.trigger = .atCycle n ∧
              (u.link.currentCycle - n).toNat < 2 ^ 31 then .late else .done,
            p.tag, p.code, [BitVec.ofNat 32 rules.length]⟩) ∧
        (∀ r ∈ rules, v.rule r = armed (u.rule r)) ∧ (∀ r, r ∉ rules → v.rule r = u.rule r) ∧
        v = { u with rules := v.rules }
    (form = 0 →
      (256 ≤ p.index → refused .armRule .badIndex) ∧
      (∀ r : RuleId, p.index = r.val →
        ((u.rule r).state = .vacant → refused .armRule .badIndex) ∧
        ((u.rule r).state = .armed ∨ (u.rule r).state = .triggered ∨ (u.rule r).state = .active →
          refused .armRule .ruleBusy) ∧
        ((u.rule r).state = .loaded ∨ (u.rule r).state = .spent → arms .armRule [r]))) ∧
    (form = 1 →
      (15 < p.index → refused .armGroup .badValue) ∧
      (p.index ≤ 15 → arms .armGroup ((List.finRange 256).filter fun r =>
        (u.rule r).fields.group = p.index ∧
          ((u.rule r).state = .loaded ∨ (u.rule r).state = .spent)))) ∧
    (2 ≤ form → refused .armRule .badValue ∧ refused .armGroup .badValue)

/-- DISARM makes one rule, or every rule of a group, LOADED where it is ARMED, TRIGGERED or ACTIVE: its
counts stop, it leaves its chain, its counters and REMAINING stay, and no notice and no ON_RULE trigger
is sent; the reply carries how many (R92, R169). The model's choices: the count as one whole word (log 16),
and that an undefined form is refused by either row (log 4). -/
def Obligations.DisarmingReturnsRules : Prop :=
  ∀ (s : State) (p : Place) (rest : List Place), Headed s p rest → CarriedOut .disarm p →
    let u := settle s
    let form := (p.payload.getD 0 0).toNat
    let refused (row : Instr) (status : Status) : Prop :=
      exec row s = .next (replied u p rest ⟨status, p.tag, p.code, []⟩)
    let disarms (row : Instr) (chosen : RuleId → Prop) : Prop :=
      ∀ rules : List RuleId, rules.Nodup →
        (∀ r, r ∈ rules ↔ chosen r ∧ ((u.rule r).state = .armed ∨ (u.rule r).state = .triggered ∨
          (u.rule r).state = .active)) →
        ∃ v, exec row s = .next (replied v p rest
            ⟨.done, p.tag, p.code, [BitVec.ofNat 32 rules.length]⟩) ∧
          (∀ r ∈ rules, v.rule r = { u.rule r with
            state := .loaded
            delayCount := 0
            durationCount := 0
            baseSeen := false
            attemptDue := false
            endDue := false
            late := false }) ∧
          (∀ r, r ∉ rules → v.rule r = u.rule r) ∧
          (∀ l, v.lane l = { u.lane l with
            chain := (u.lane l).chain.filter fun r => decide (r ∉ rules) }) ∧
          v = { u with rules := v.rules, lanes := v.lanes }
    (form = 0 →
      (256 ≤ p.index → refused .disarmRule .badIndex) ∧
      (∀ r : RuleId, p.index = r.val →
        ((u.rule r).state = .vacant → refused .disarmRule .badIndex) ∧
        ((u.rule r).state ≠ .vacant → disarms .disarmRule (· = r)))) ∧
    (form = 1 →
      (15 < p.index → refused .disarmGroup .badValue) ∧
      (p.index ≤ 15 → disarms .disarmGroup fun r => (u.rule r).fields.group = p.index)) ∧
    (2 ≤ form → refused .disarmRule .badValue ∧ refused .disarmGroup .badValue)

/-- FIRE offers its channel to every ARMED rule that waits on it; each one whose lane is in PRIMED, RUNNING
or DRAINING is triggered with its delay loaded, its base tick still to come, and the reply carries how
many took it (R93, R98), as one whole word (log 16: the model's choice). -/
def Obligations.FireTriggersItsChannel : Prop :=
  ∀ (s : State) (p : Place) (rest : List Place), Headed s p rest → CarriedOut .fire p →
    let u := settle s
    let takes (r : RuleId) : Prop := (u.rule r).state = .armed ∧
      (u.rule r).fields.trigger = .onCommand p.index ∧
      ∃ l : LaneId, (u.rule r).fields.lane = l.val ∧
        ((u.lane l).state = .primed ∨ (u.lane l).state = .running ∨ (u.lane l).state = .draining)
    (7 < p.index → exec .fire s = .next (replied u p rest ⟨.badIndex, p.tag, p.code, []⟩)) ∧
    (p.index ≤ 7 → ∀ rules : List RuleId, rules.Nodup → (∀ r, r ∈ rules ↔ takes r) →
      ∃ v, exec .fire s = .next (replied v p rest
          ⟨.done, p.tag, p.code, [BitVec.ofNat 32 rules.length]⟩) ∧
        (∀ r ∈ rules, v.rule r = { u.rule r with
          state := .triggered
          delayCount := (u.rule r).fields.delay
          baseSeen := false
          attemptDue := decide ((u.rule r).fields.delay = 0)
          late := false }) ∧
        (∀ r, r ∉ rules → v.rule r = u.rule r) ∧
        v = { u with rules := v.rules })

/-- Step 2 of a tick offers a presented code and its mark to the ARMED rules that watch the lane (R96), makes
it the previous code, and makes the due attempts of the lane in order of PRIORITY and index, one at a time;
those that fall due on the way follow, each rule once, several due by one delivery by index (R93, R97, R101;
the index order is the model's choice, log 21); on a FREEZE tick attempts alone are
made (R126), on an underrun nothing. A rule that fails its check becomes VACANT and ends the tick (R108). An
attempt succeeds when the lane's chain has room for the rule and its class allows it: the rule becomes ACTIVE
with its counts, generator and accumulator loaded, enters the chain after every rule of equal or lower
PRIORITY, and its ON_RULE(ACTIVE) reaches the rules that wait for it (R102, R104; NOISE_STATE of an action
without a seed is log 29's). Otherwise the rule becomes ARMED with MISSED +1, an IMMEDIATE one triggering
again at once (R94, R103). Both offer RULE_EVENT where NOTIFY is yes (R111; its code of the event log 33's,
its TICKS log 10's and, for a LANE above 23, log 47's). -/
def Obligations.AttemptsJoinTheChain : Prop :=
  (∀ (s : State) (l : LaneId) (e : Int) (mark : Option Nat),
    let x := s.lane l
    let hits (y : Rule) : Prop := y.fields.watch = l.val ∧
      ((∃ tag m, y.fields.trigger = .onMark tag ∧ mark = some m ∧ (tag = none ∨ tag = some m)) ∨
        ∃ t edge p, y.fields.trigger = .onLevel t edge ∧ x.prev = some p ∧
          ((edge ≠ .falling ∧ p < t ∧ t ≤ e) ∨ (edge ≠ .rising ∧ t ≤ p ∧ e < t)))
    let takes (y : Rule) : Prop := y.state = .armed ∧ laneInPlay s y.fields.lane = true ∧ hits y
    let based (u : State) : State := u.mapRules fun _ y =>
      if y.state = .triggered ∧ y.fields.lane = l.val then { y with baseSeen := true } else y
    (∃ u, step2 s l (.code e mark) = runAttempts l 256 (attemptsDue u l) [] u ∧
      u.lane l = { x with prev := some e } ∧ (∀ k, k ≠ l → u.lane k = s.lane k) ∧
      (∀ r,
        let y := s.rule r
        (takes y → u.rule r = { y with
          state := .triggered
          delayCount := y.fields.delay
          baseSeen := decide (y.fields.lane = l.val)
          attemptDue := decide (y.fields.delay = 0)
          late := false }) ∧
        (¬takes y → u.rule r =
          if y.state = .triggered ∧ y.fields.lane = l.val then { y with baseSeen := true } else y)) ∧
      u = { s with lanes := u.lanes, rules := u.rules }) ∧
    (∀ rules, step2 s l (.frozen rules) =
      runAttempts l 256 (attemptsDue (based s) l) [] (based s)) ∧
    step2 s l .underrun = .goOn s []) ∧
  (∀ (s : State) (l : LaneId),
    let due := attemptsDue s l
    due.Nodup ∧
    (∀ r, r ∈ due ↔ (s.rule r).state = .triggered ∧ (s.rule r).attemptDue = true ∧
      (s.rule r).fields.lane = l.val) ∧
    due.Pairwise fun i j => (s.rule i).fields.priority < (s.rule j).fields.priority ∨
      (s.rule i).fields.priority = (s.rule j).fields.priority ∧ i < j) ∧
  (∀ (s : State) (l : LaneId) (r : RuleId) (fuel : Nat) (todo done : List RuleId),
    let due (u : State) (j : RuleId) : Prop := (u.rule j).state = .triggered ∧
      (u.rule j).attemptDue = true ∧ (u.rule j).fields.lane = l.val
    runAttempts l (fuel + 1) [] done s = .goOn s done ∧
    ((s.rule r).codeOk = false →
      ∃ t, runAttempts l (fuel + 1) (r :: todo) done s = .endedTick t (.ruleCheck l r) ∧
        t.rule r = .vacant ∧ (∀ j, j ≠ r → t.rule j = s.rule j) ∧
        (∀ k, t.lane k = { s.lane k with chain := (s.lane k).chain.erase r }) ∧
        t = { s with lanes := t.lanes, rules := t.rules }) ∧
    ((s.rule r).codeOk = true → attemptSucceeds s l r = true →
      let t := (activate s l r).1
      ∃ more : List RuleId, more.Pairwise (· < ·) ∧
        (∀ j, j ∈ more ↔ due t j ∧ ¬due s j ∧ j ≠ r ∧ j ∉ done ∧ j ∉ todo) ∧
        runAttempts l (fuel + 1) (r :: todo) done s = runAttempts l fuel (todo ++ more) (r :: done) t) ∧
    ((s.rule r).codeOk = true → attemptSucceeds s l r = false →
      runAttempts l (fuel + 1) (r :: todo) done s =
        runAttempts l fuel todo (r :: done) (missAttempt s r))) ∧
  ∀ (s : State) (l : LaneId) (r : RuleId),
    let x := s.rule r
    let chain := (s.lane l).chain
    let room : Prop := chain.length < 8 ∧
      (classOf x.fields.action = .time → ∀ j ∈ chain, classOf (s.rule j).fields.action ≠ .time) ∧
      (classOf x.fields.action = .frame → (s.lane l).config.portKind = .frame)
    let takes (y : Rule) : Prop := y.state = .armed ∧ laneInPlay s y.fields.lane = true
    let triggered (baseNow : Bool) (y : Rule) : Rule :=
      { y with
        state := .triggered
        delayCount := y.fields.delay
        baseSeen := baseNow
        attemptDue := decide (y.fields.delay = 0)
        late := false }
    let ticks : Nat := if h : x.fields.lane < 24 then (s.lane ⟨x.fields.lane, h⟩).counters.ticks else 0
    let offered (event count : Nat) : ReturnSender := if x.fields.notify then
        (offerNotice s .ruleEvent
          [BitVec.ofNat 32 (r.val + event * 2 ^ 8 + x.fields.lane * 2 ^ 12), s.link.currentCycle,
            BitVec.ofNat 32 ticks, BitVec.ofNat 32 count]).ret
      else s.ret
    (attemptSucceeds s l r = true ↔ room) ∧
    (let t := (activate s l r).1;
      t.rule r = { x with
        state := .active
        durationCount := x.fields.duration
        noise := match x.fields.action with
          | .noise _ seed => if seed = 0 then 1 else BitVec.ofNat 23 seed
          | _ => 1
        ramp := 0
        baseSeen := false
        attemptDue := false
        endDue := false } ∧
      (∀ j, j ≠ r →
        (takes (s.rule j) ∧ (s.rule j).fields.trigger = .onRule r .active →
          t.rule j = triggered (decide ((s.rule j).fields.lane = l.val)) (s.rule j)) ∧
        (¬(takes (s.rule j) ∧ (s.rule j).fields.trigger = .onRule r .active) →
          t.rule j = s.rule j)) ∧
      (∀ before after, chain = before ++ after →
        (∀ j ∈ before, (s.rule j).fields.priority ≤ x.fields.priority) →
        (∀ j ∈ after.head?, x.fields.priority < (s.rule j).fields.priority) →
          t.lane l = { s.lane l with chain := before ++ r :: after }) ∧
      (∀ k, k ≠ l → t.lane k = s.lane k) ∧
      t = { s with lanes := t.lanes, rules := t.rules, ret := offered 0 0 }) ∧
    (let t := missAttempt s r
      let missed : Rule := { x with
        state := .armed
        delayCount := 0
        missed := countUp x.missed
        baseSeen := false
        attemptDue := false };
      (takes missed ∧ x.fields.trigger = .immediate → t.rule r = triggered false missed) ∧
      (¬(takes missed ∧ x.fields.trigger = .immediate) → t.rule r = missed) ∧
      (∀ j, j ≠ r → t.rule j = s.rule j) ∧
      t = { s with rules := t.rules, ret := offered 2 (countUp x.missed) })

/-! ## Arithmetic and the latch -/

/-- Under CURVE NONE the curve stage gives O = ⌊U / 16⌋ of the offset code U = E + 8,388,608, reads no
point and raises no error (R74). A curve's output interpolates between the two points of U's segment, both
of which are checked, rounding to the nearest step and an exact half upward; it lies between those points
(R75, R77). A tick that falls among the replacements of a LOAD_CURVE may read its upper point as a later
replacement leaves it (R79; how such a tick is commanded is the model's choice, log 22). -/
def Obligations.CurveStageIsExact : Prop :=
  ∀ (s : State) (e : Int), -8388608 ≤ e → e ≤ 8388607 →
    let u := (e + 8388608).toNat
    u ≤ 16777215 ∧
    (e = 0 → ∃ o, curveStage s none e = .code o ∧ formatWord .w16 o = 32768) ∧
    (∃ o : OutCode, curveStage s none e = .code o ∧ o.toNat = u / 16 ∧ o.toNat ≤ 1048575) ∧
    (∀ (c : CurveId) (k : Fin 64), k.val = u / 262144 →
      let low := s.point c k.castSucc
      let high := s.point c k.succ
      let p : Int := low.value.toNat
      let q : Int := high.value.toNat
      let f : Int := (u % 262144 : Nat)
      (low.codeOk = false → curveStage s (some c) e = .fails c k.val) ∧
      (low.codeOk = true → high.codeOk = false → curveStage s (some c) e = .fails c (k.val + 1)) ∧
      (low.codeOk = true → high.codeOk = true →
        ∃ o : OutCode, curveStage s (some c) e = .code o ∧
          (o.toNat : Int) = p + Int.fdiv ((q - p) * f + 131072) 262144 ∧
          min p q ≤ o.toNat ∧ (o.toNat : Int) ≤ max p q ∧ (f = 0 → (o.toNat : Int) = p)) ∧
      ∀ later : State,
        curveStageOver s later (some c) e =
          curveStage (s.setPoint c k.succ (later.point c k.succ)) (some c) e)

/-- CLAMP gives min(max(E, lo), hi), an engineering code that never counts as saturated, and acts as
STUCK(lo) where lo = hi; LOAD_RULE's decoding enforces lo ≤ hi. INVERT negates, −8,388,608 giving
8,388,607 as saturated, and twice gives back every other code (R121). STUCK gives its code; OFFSET, GAIN,
NOISE and RAMP give sat() of their exact sum and are saturated where it lies outside the range: GAIN's
product rounded to 1/4096 with halves away from zero, NOISE's generator stepped by x²³ + x¹⁸ + 1 and scaled to
±A, RAMP's accumulator moved and bounded (R71, R117 to R120). Every result is an engineering code (R71), and
a gate generator steps by its bits 15, 13, 12 and 10 (R106). VALUE rules act in chain order, each on the
result of the one before (R70, R134). That an action's parameters stay in the range of their kind, also
after a disturbance, is the model's choice (log 30). -/
def Obligations.ClampAndInvertStayInRange : Prop :=
  (∀ (e : Int) (noise : BitVec 23) (ramp : Int), -8388608 ≤ e → e ≤ 8388607 →
    let invert (x : Int) : ValueResult := valueAction .invert x noise ramp
    (∀ lo hi : Int, -8388608 ≤ lo → lo ≤ hi → hi ≤ 8388607 →
      valueAction (.clamp lo hi) e noise ramp = ⟨min (max e lo) hi, false, noise, ramp⟩ ∧
      -8388608 ≤ min (max e lo) hi ∧ min (max e lo) hi ≤ 8388607 ∧
      valueAction (.clamp lo lo) e noise ramp = valueAction (.stuck lo) e noise ramp) ∧
    (∀ a b c lo hi, decodeAction 5 a b c = some (.clamp lo hi) → lo ≤ hi ∧ -8388608 ≤ lo ∧ hi ≤ 8388607) ∧
    (-8388608 < e → invert e = ⟨-e, false, noise, ramp⟩ ∧ (invert (invert e).e).e = e) ∧
    (e = -8388608 → invert e = ⟨8388607, true, noise, ramp⟩ ∧ (invert (invert e).e).e = -8388607)) ∧
  (∀ (e : Int) (n : BitVec 23) (ramp : Int),
    let sat (x : Int) : Int := max (-8388608) (min x 8388607)
    let sum (x : Int) (noise : BitVec 23) (acc : Int) : ValueResult :=
      ⟨sat x, decide (x < -8388608 ∨ 8388607 < x), noise, acc⟩
    (∀ v, valueAction (.stuck v) e n ramp = ⟨v, false, n, ramp⟩) ∧
    (∀ d, valueAction (.offset d) e n ramp = sum (e + d) n ramp) ∧
    (∀ g d : Int, ∃ m : Int, valueAction (.gain g d) e n ramp = sum (m + d) n ramp ∧
      2 * |4096 * m - e * g| ≤ 4096 ∧ (2 * |4096 * m - e * g| = 4096 → |e * g| < |4096 * m|)) ∧
    (∀ a seed : Nat,
      let next : BitVec 23 :=
        BitVec.ofNat 23 (2 * n.toNat + if n.getLsbD 22 = n.getLsbD 17 then 0 else 1)
      valueAction (.noise a seed) e n ramp =
        sum (e + (((next.toNat * (2 * a + 1) / 2 ^ 23 : Nat) : Int) - a)) next ramp) ∧
    (∀ (d : Int) (limit : Nat),
      let acc : Int := max (-limit) (min (ramp + d) limit)
      valueAction (.ramp d limit) e n ramp = sum (e + acc) n acc) ∧
    ∀ a : Action, a.fits = true → -8388608 ≤ e → e ≤ 8388607 →
      -8388608 ≤ (valueAction a e n ramp).e ∧ (valueAction a e n ramp).e ≤ 8388607) ∧
  (∀ g : BitVec 16, gateStep g = BitVec.ofNat 16 (2 * g.toNat +
    (g.getLsbD 15 ^^ g.getLsbD 13 ^^ g.getLsbD 12 ^^ g.getLsbD 10).toNat)) ∧
  ∀ (s : State) (e : Int) (clamped : Bool) (r : RuleId) (later : List RuleId),
    let x := s.rule r
    let v := valueAction x.fields.action e x.noise x.ramp
    valueStage [] s e clamped = (s, e, clamped) ∧
    valueStage (r :: later) s e clamped = valueStage later
      (s.setRule r { x with applied := countUp x.applied, noise := v.noise, ramp := v.ramp }) v.e
      (clamped || v.clamped)

/-- A report moves the latch by its table: the first descriptor is held, a HARD one displaces a SOFT one
and counts it, and later ones are counted; a second HARD report nests it. A descriptor placed is offered in
LATCH_SET (R144). A HARD report halts the lane it names, and the nesting one every lane in play: a halted
lane gives up its queue, fetch, debt, chain and IN_USE share, offers LANE_ENDED HALTED (its code log 33's)
and hands its fallback word once, in lane-number order (the TAP words too: log 41); its rules return to
ARMED, out of every chain. Nothing else is touched (R10, R38, R66, R109, R138, R140, R141, R163). -/
def Obligations.ReportsMoveTheLatch : Prop :=
  ∀ (s : State) (e : ErrorDetail),
    let t := report s e
    let d : Descriptor := ⟨e, s.link.currentCycle⟩
    let k := s.latch
    let ordered (l : LaneId) : Prop := (s.lane l).state.inPlay = true ∧
      (e.hardLane = some l ∨ (e.hardLane ≠ none ∧ ∃ h, k.state = .held h ∧ h.detail.hardLane ≠ none))
    let placed : Prop := k.state = .empty ∨
      (e.hardLane ≠ none ∧ ∃ h, k.state = .held h ∧ h.detail.hardLane = none)
    let returns (r : RuleId) : Prop := ∃ l, ordered l ∧ (r ∈ (s.lane l).chain ∨
      ((s.rule r).fields.lane = l.val ∧
        ((s.rule r).state = .triggered ∨ (s.rule r).state = .active)))
    let haltWord (x : Lane) : OutCode :=
      let hold : OutCode := if x.sentSinceStart then x.lastWord else x.config.restWord
      match x.config.fallback with
      | .hold => hold
      | .rest => x.config.restWord
      | .live => hold
    let ends (v : State) (l : LaneId) : State :=
      let w := offerNotice v .laneEnded [BitVec.ofNat 32 (l.val + 2 * 2 ^ 8), s.link.currentCycle,
        BitVec.ofNat 32 (s.lane l).counters.ticks]
      if l ∉ s.ret.tapLanes then w
      else if w.ret.taps.length < 32 then
        { w with ret := { w.ret with taps := w.ret.taps ++
          [BitVec.ofNat 32 (l.val * 2 ^ 27 + 1 * 2 ^ 24 + (haltWord (s.lane l)).toNat)] } }
      else { w with ret := { w.ret with tapsDropped := countUp w.ret.tapsDropped } }
    (k.state = .empty → t.latch = { k with state := .held d }) ∧
    (∀ h, k.state = .held h →
      (e.hardLane = none → t.latch = { k with softLater := countUp k.softLater }) ∧
      (e.hardLane ≠ none → h.detail.hardLane = none →
        t.latch = { k with state := .held d, softLater := countUp k.softLater }) ∧
      (e.hardLane ≠ none → h.detail.hardLane ≠ none →
        t.latch = { k with state := .heldNested h, hardLater := countUp k.hardLater })) ∧
    (∀ h, k.state = .heldNested h →
      t.latch = if e.hardLane = none then { k with softLater := countUp k.softLater }
        else { k with hardLater := countUp k.hardLater }) ∧
    (∀ stays : RuleId → Bool, (∀ r, stays r = true ↔ ¬returns r) → ∀ l, ¬ordered l →
      t.lane l = { s.lane l with chain := (s.lane l).chain.filter stays }) ∧
    (∀ l, ordered l →
      let x := s.lane l
      t.lane l = (handOver (s.setLane l { x with
        state := .halted
        pacing := if x.config.fallback = .live then x.pacing else .stopped
        queue := []
        fetch := x.fetch.map fun f => { f with voided := true }
        fetchPos := .none
        debt := 0
        counted := []
        chain := [] }) l ⟨⟨haltWord x, .normal, false, false, .normal⟩, true, false⟩).lane l) ∧
    (∀ r,
      (returns r →
        t.rule r = { s.rule r with
          state := .armed
          delayCount := 0
          durationCount := 0
          ramp := 0
          baseSeen := false
          attemptDue := false
          endDue := false }) ∧
      (¬returns r → t.rule r = s.rule r)) ∧
    (∀ b (share : LaneId → Nat),
      (∀ l, (ordered l → share l = (s.lane l).counted.count b) ∧ (¬ordered l → share l = 0)) →
        t.block b = { s.block b with
          inUse := (s.block b).inUse - ((List.finRange 24).map share).sum }) ∧
    (∀ halted : List LaneId, halted.Pairwise (· < ·) → (∀ l, l ∈ halted ↔ ordered l) →
      (placed → t.ret =
        (halted.foldl ends (offerNotice { s with latch := t.latch } .latchSet (latchPayload t.latch))).ret) ∧
      (¬placed → t.ret = (halted.foldl ends s).ret)) ∧
    t = { s with
      lanes := t.lanes
      rules := t.rules
      dir := { s.dir with blocks := t.dir.blocks }
      latch := t.latch
      ret := t.ret }
end

