-- ==== Sys2Proof/Laws/State.lean ====
section
/-! SUPPORT. Laws/State.lean: what each update of a part of the state leaves in every field, and what the
reads of a lane, a rule, a block, a bank group or a point answer after an update. -/

namespace Sys2Proof.Machine

variable (s : State)

/-! ### setLane -/

@[simp] theorem State.setLane_now (l : LaneId) (x : Lane) : (s.setLane l x).now = s.now := rfl
@[simp] theorem State.setLane_resetLow (l : LaneId) (x : Lane) : (s.setLane l x).resetLow = s.resetLow := rfl
@[simp] theorem State.setLane_link (l : LaneId) (x : Lane) : (s.setLane l x).link = s.link := rfl
@[simp] theorem State.setLane_ret (l : LaneId) (x : Lane) : (s.setLane l x).ret = s.ret := rfl
@[simp] theorem State.setLane_cmd (l : LaneId) (x : Lane) : (s.setLane l x).cmd = s.cmd := rfl
@[simp] theorem State.setLane_rules (l : LaneId) (x : Lane) : (s.setLane l x).rules = s.rules := rfl
@[simp] theorem State.setLane_curves (l : LaneId) (x : Lane) : (s.setLane l x).curves = s.curves := rfl
@[simp] theorem State.setLane_dir (l : LaneId) (x : Lane) : (s.setLane l x).dir = s.dir := rfl
@[simp] theorem State.setLane_tmc (l : LaneId) (x : Lane) : (s.setLane l x).tmc = s.tmc := rfl
@[simp] theorem State.setLane_mem (l : LaneId) (x : Lane) : (s.setLane l x).mem = s.mem := rfl
@[simp] theorem State.setLane_latch (l : LaneId) (x : Lane) : (s.setLane l x).latch = s.latch := rfl
@[simp] theorem State.setLane_freeCount (l : LaneId) (x : Lane) : (s.setLane l x).freeCount = s.freeCount := rfl
@[simp] theorem State.setLane_pending (l : LaneId) (x : Lane) : (s.setLane l x).pending = s.pending := rfl

/-! ### modLane -/

@[simp] theorem State.modLane_now (l : LaneId) (f : Lane → Lane) : (s.modLane l f).now = s.now := rfl
@[simp] theorem State.modLane_resetLow (l : LaneId) (f : Lane → Lane) : (s.modLane l f).resetLow = s.resetLow := rfl
@[simp] theorem State.modLane_link (l : LaneId) (f : Lane → Lane) : (s.modLane l f).link = s.link := rfl
@[simp] theorem State.modLane_ret (l : LaneId) (f : Lane → Lane) : (s.modLane l f).ret = s.ret := rfl
@[simp] theorem State.modLane_cmd (l : LaneId) (f : Lane → Lane) : (s.modLane l f).cmd = s.cmd := rfl
@[simp] theorem State.modLane_rules (l : LaneId) (f : Lane → Lane) : (s.modLane l f).rules = s.rules := rfl
@[simp] theorem State.modLane_curves (l : LaneId) (f : Lane → Lane) : (s.modLane l f).curves = s.curves := rfl
@[simp] theorem State.modLane_dir (l : LaneId) (f : Lane → Lane) : (s.modLane l f).dir = s.dir := rfl
@[simp] theorem State.modLane_tmc (l : LaneId) (f : Lane → Lane) : (s.modLane l f).tmc = s.tmc := rfl
@[simp] theorem State.modLane_mem (l : LaneId) (f : Lane → Lane) : (s.modLane l f).mem = s.mem := rfl
@[simp] theorem State.modLane_latch (l : LaneId) (f : Lane → Lane) : (s.modLane l f).latch = s.latch := rfl
@[simp] theorem State.modLane_freeCount (l : LaneId) (f : Lane → Lane) : (s.modLane l f).freeCount = s.freeCount := rfl
@[simp] theorem State.modLane_pending (l : LaneId) (f : Lane → Lane) : (s.modLane l f).pending = s.pending := rfl

/-! ### mapLanes -/

@[simp] theorem State.mapLanes_now (f : LaneId → Lane → Lane) : (s.mapLanes f).now = s.now := by
  simp only [State.mapLanes]
@[simp] theorem State.mapLanes_resetLow (f : LaneId → Lane → Lane) : (s.mapLanes f).resetLow = s.resetLow := by
  simp only [State.mapLanes]
@[simp] theorem State.mapLanes_link (f : LaneId → Lane → Lane) : (s.mapLanes f).link = s.link := by
  simp only [State.mapLanes]
@[simp] theorem State.mapLanes_ret (f : LaneId → Lane → Lane) : (s.mapLanes f).ret = s.ret := by
  simp only [State.mapLanes]
@[simp] theorem State.mapLanes_cmd (f : LaneId → Lane → Lane) : (s.mapLanes f).cmd = s.cmd := by
  simp only [State.mapLanes]
@[simp] theorem State.mapLanes_rules (f : LaneId → Lane → Lane) : (s.mapLanes f).rules = s.rules := by
  simp only [State.mapLanes]
@[simp] theorem State.mapLanes_curves (f : LaneId → Lane → Lane) : (s.mapLanes f).curves = s.curves := by
  simp only [State.mapLanes]
@[simp] theorem State.mapLanes_dir (f : LaneId → Lane → Lane) : (s.mapLanes f).dir = s.dir := by
  simp only [State.mapLanes]
@[simp] theorem State.mapLanes_tmc (f : LaneId → Lane → Lane) : (s.mapLanes f).tmc = s.tmc := by
  simp only [State.mapLanes]
@[simp] theorem State.mapLanes_mem (f : LaneId → Lane → Lane) : (s.mapLanes f).mem = s.mem := by
  simp only [State.mapLanes]
@[simp] theorem State.mapLanes_latch (f : LaneId → Lane → Lane) : (s.mapLanes f).latch = s.latch := by
  simp only [State.mapLanes]
@[simp] theorem State.mapLanes_freeCount (f : LaneId → Lane → Lane) : (s.mapLanes f).freeCount = s.freeCount := by
  simp only [State.mapLanes]
@[simp] theorem State.mapLanes_pending (f : LaneId → Lane → Lane) : (s.mapLanes f).pending = s.pending := by
  simp only [State.mapLanes]

/-! ### setRule -/

@[simp] theorem State.setRule_now (r : RuleId) (x : Rule) : (s.setRule r x).now = s.now := rfl
@[simp] theorem State.setRule_resetLow (r : RuleId) (x : Rule) : (s.setRule r x).resetLow = s.resetLow := rfl
@[simp] theorem State.setRule_link (r : RuleId) (x : Rule) : (s.setRule r x).link = s.link := rfl
@[simp] theorem State.setRule_ret (r : RuleId) (x : Rule) : (s.setRule r x).ret = s.ret := rfl
@[simp] theorem State.setRule_cmd (r : RuleId) (x : Rule) : (s.setRule r x).cmd = s.cmd := rfl
@[simp] theorem State.setRule_lanes (r : RuleId) (x : Rule) : (s.setRule r x).lanes = s.lanes := rfl
@[simp] theorem State.setRule_curves (r : RuleId) (x : Rule) : (s.setRule r x).curves = s.curves := rfl
@[simp] theorem State.setRule_dir (r : RuleId) (x : Rule) : (s.setRule r x).dir = s.dir := rfl
@[simp] theorem State.setRule_tmc (r : RuleId) (x : Rule) : (s.setRule r x).tmc = s.tmc := rfl
@[simp] theorem State.setRule_mem (r : RuleId) (x : Rule) : (s.setRule r x).mem = s.mem := rfl
@[simp] theorem State.setRule_latch (r : RuleId) (x : Rule) : (s.setRule r x).latch = s.latch := rfl
@[simp] theorem State.setRule_freeCount (r : RuleId) (x : Rule) : (s.setRule r x).freeCount = s.freeCount := rfl
@[simp] theorem State.setRule_pending (r : RuleId) (x : Rule) : (s.setRule r x).pending = s.pending := rfl

/-! ### modRule -/

@[simp] theorem State.modRule_now (r : RuleId) (f : Rule → Rule) : (s.modRule r f).now = s.now := rfl
@[simp] theorem State.modRule_resetLow (r : RuleId) (f : Rule → Rule) : (s.modRule r f).resetLow = s.resetLow := rfl
@[simp] theorem State.modRule_link (r : RuleId) (f : Rule → Rule) : (s.modRule r f).link = s.link := rfl
@[simp] theorem State.modRule_ret (r : RuleId) (f : Rule → Rule) : (s.modRule r f).ret = s.ret := rfl
@[simp] theorem State.modRule_cmd (r : RuleId) (f : Rule → Rule) : (s.modRule r f).cmd = s.cmd := rfl
@[simp] theorem State.modRule_lanes (r : RuleId) (f : Rule → Rule) : (s.modRule r f).lanes = s.lanes := rfl
@[simp] theorem State.modRule_curves (r : RuleId) (f : Rule → Rule) : (s.modRule r f).curves = s.curves := rfl
@[simp] theorem State.modRule_dir (r : RuleId) (f : Rule → Rule) : (s.modRule r f).dir = s.dir := rfl
@[simp] theorem State.modRule_tmc (r : RuleId) (f : Rule → Rule) : (s.modRule r f).tmc = s.tmc := rfl
@[simp] theorem State.modRule_mem (r : RuleId) (f : Rule → Rule) : (s.modRule r f).mem = s.mem := rfl
@[simp] theorem State.modRule_latch (r : RuleId) (f : Rule → Rule) : (s.modRule r f).latch = s.latch := rfl
@[simp] theorem State.modRule_freeCount (r : RuleId) (f : Rule → Rule) : (s.modRule r f).freeCount = s.freeCount := rfl
@[simp] theorem State.modRule_pending (r : RuleId) (f : Rule → Rule) : (s.modRule r f).pending = s.pending := rfl

/-! ### mapRules -/

@[simp] theorem State.mapRules_now (f : RuleId → Rule → Rule) : (s.mapRules f).now = s.now := by
  simp only [State.mapRules]
@[simp] theorem State.mapRules_resetLow (f : RuleId → Rule → Rule) : (s.mapRules f).resetLow = s.resetLow := by
  simp only [State.mapRules]
@[simp] theorem State.mapRules_link (f : RuleId → Rule → Rule) : (s.mapRules f).link = s.link := by
  simp only [State.mapRules]
@[simp] theorem State.mapRules_ret (f : RuleId → Rule → Rule) : (s.mapRules f).ret = s.ret := by
  simp only [State.mapRules]
@[simp] theorem State.mapRules_cmd (f : RuleId → Rule → Rule) : (s.mapRules f).cmd = s.cmd := by
  simp only [State.mapRules]
@[simp] theorem State.mapRules_lanes (f : RuleId → Rule → Rule) : (s.mapRules f).lanes = s.lanes := by
  simp only [State.mapRules]
@[simp] theorem State.mapRules_curves (f : RuleId → Rule → Rule) : (s.mapRules f).curves = s.curves := by
  simp only [State.mapRules]
@[simp] theorem State.mapRules_dir (f : RuleId → Rule → Rule) : (s.mapRules f).dir = s.dir := by
  simp only [State.mapRules]
@[simp] theorem State.mapRules_tmc (f : RuleId → Rule → Rule) : (s.mapRules f).tmc = s.tmc := by
  simp only [State.mapRules]
@[simp] theorem State.mapRules_mem (f : RuleId → Rule → Rule) : (s.mapRules f).mem = s.mem := by
  simp only [State.mapRules]
@[simp] theorem State.mapRules_latch (f : RuleId → Rule → Rule) : (s.mapRules f).latch = s.latch := by
  simp only [State.mapRules]
@[simp] theorem State.mapRules_freeCount (f : RuleId → Rule → Rule) : (s.mapRules f).freeCount = s.freeCount := by
  simp only [State.mapRules]
@[simp] theorem State.mapRules_pending (f : RuleId → Rule → Rule) : (s.mapRules f).pending = s.pending := by
  simp only [State.mapRules]

/-! ### setGroup -/

@[simp] theorem State.setGroup_now (g : GroupId) (x : BankGroup) : (s.setGroup g x).now = s.now := rfl
@[simp] theorem State.setGroup_resetLow (g : GroupId) (x : BankGroup) : (s.setGroup g x).resetLow = s.resetLow := rfl
@[simp] theorem State.setGroup_link (g : GroupId) (x : BankGroup) : (s.setGroup g x).link = s.link := rfl
@[simp] theorem State.setGroup_ret (g : GroupId) (x : BankGroup) : (s.setGroup g x).ret = s.ret := rfl
@[simp] theorem State.setGroup_cmd (g : GroupId) (x : BankGroup) : (s.setGroup g x).cmd = s.cmd := rfl
@[simp] theorem State.setGroup_lanes (g : GroupId) (x : BankGroup) : (s.setGroup g x).lanes = s.lanes := rfl
@[simp] theorem State.setGroup_rules (g : GroupId) (x : BankGroup) : (s.setGroup g x).rules = s.rules := rfl
@[simp] theorem State.setGroup_curves (g : GroupId) (x : BankGroup) : (s.setGroup g x).curves = s.curves := rfl
@[simp] theorem State.setGroup_dir (g : GroupId) (x : BankGroup) : (s.setGroup g x).dir = s.dir := rfl
@[simp] theorem State.setGroup_mem (g : GroupId) (x : BankGroup) : (s.setGroup g x).mem = s.mem := rfl
@[simp] theorem State.setGroup_latch (g : GroupId) (x : BankGroup) : (s.setGroup g x).latch = s.latch := rfl
@[simp] theorem State.setGroup_freeCount (g : GroupId) (x : BankGroup) : (s.setGroup g x).freeCount = s.freeCount := rfl
@[simp] theorem State.setGroup_pending (g : GroupId) (x : BankGroup) : (s.setGroup g x).pending = s.pending := rfl

/-! ### setBlock -/

@[simp] theorem State.setBlock_now (b : BlockId) (x : Block) : (s.setBlock b x).now = s.now := rfl
@[simp] theorem State.setBlock_resetLow (b : BlockId) (x : Block) : (s.setBlock b x).resetLow = s.resetLow := rfl
@[simp] theorem State.setBlock_link (b : BlockId) (x : Block) : (s.setBlock b x).link = s.link := rfl
@[simp] theorem State.setBlock_ret (b : BlockId) (x : Block) : (s.setBlock b x).ret = s.ret := rfl
@[simp] theorem State.setBlock_cmd (b : BlockId) (x : Block) : (s.setBlock b x).cmd = s.cmd := rfl
@[simp] theorem State.setBlock_lanes (b : BlockId) (x : Block) : (s.setBlock b x).lanes = s.lanes := rfl
@[simp] theorem State.setBlock_rules (b : BlockId) (x : Block) : (s.setBlock b x).rules = s.rules := rfl
@[simp] theorem State.setBlock_curves (b : BlockId) (x : Block) : (s.setBlock b x).curves = s.curves := rfl
@[simp] theorem State.setBlock_tmc (b : BlockId) (x : Block) : (s.setBlock b x).tmc = s.tmc := rfl
@[simp] theorem State.setBlock_mem (b : BlockId) (x : Block) : (s.setBlock b x).mem = s.mem := rfl
@[simp] theorem State.setBlock_latch (b : BlockId) (x : Block) : (s.setBlock b x).latch = s.latch := rfl
@[simp] theorem State.setBlock_freeCount (b : BlockId) (x : Block) : (s.setBlock b x).freeCount = s.freeCount := rfl
@[simp] theorem State.setBlock_pending (b : BlockId) (x : Block) : (s.setBlock b x).pending = s.pending := rfl

/-! ### setPoint -/

@[simp] theorem State.setPoint_now (c : CurveId) (k : PointId) (x : CurvePoint) : (s.setPoint c k x).now = s.now := rfl
@[simp] theorem State.setPoint_resetLow (c : CurveId) (k : PointId) (x : CurvePoint) : (s.setPoint c k x).resetLow = s.resetLow := rfl
@[simp] theorem State.setPoint_link (c : CurveId) (k : PointId) (x : CurvePoint) : (s.setPoint c k x).link = s.link := rfl
@[simp] theorem State.setPoint_ret (c : CurveId) (k : PointId) (x : CurvePoint) : (s.setPoint c k x).ret = s.ret := rfl
@[simp] theorem State.setPoint_cmd (c : CurveId) (k : PointId) (x : CurvePoint) : (s.setPoint c k x).cmd = s.cmd := rfl
@[simp] theorem State.setPoint_lanes (c : CurveId) (k : PointId) (x : CurvePoint) : (s.setPoint c k x).lanes = s.lanes := rfl
@[simp] theorem State.setPoint_rules (c : CurveId) (k : PointId) (x : CurvePoint) : (s.setPoint c k x).rules = s.rules := rfl
@[simp] theorem State.setPoint_dir (c : CurveId) (k : PointId) (x : CurvePoint) : (s.setPoint c k x).dir = s.dir := rfl
@[simp] theorem State.setPoint_tmc (c : CurveId) (k : PointId) (x : CurvePoint) : (s.setPoint c k x).tmc = s.tmc := rfl
@[simp] theorem State.setPoint_mem (c : CurveId) (k : PointId) (x : CurvePoint) : (s.setPoint c k x).mem = s.mem := rfl
@[simp] theorem State.setPoint_latch (c : CurveId) (k : PointId) (x : CurvePoint) : (s.setPoint c k x).latch = s.latch := rfl
@[simp] theorem State.setPoint_freeCount (c : CurveId) (k : PointId) (x : CurvePoint) : (s.setPoint c k x).freeCount = s.freeCount := rfl
@[simp] theorem State.setPoint_pending (c : CurveId) (k : PointId) (x : CurvePoint) : (s.setPoint c k x).pending = s.pending := rfl

/-! ### pass -/

@[simp] theorem State.pass_resetLow (wait : Nat) : (s.pass wait).resetLow = s.resetLow := rfl
@[simp] theorem State.pass_link (wait : Nat) : (s.pass wait).link = s.link := rfl
@[simp] theorem State.pass_ret (wait : Nat) : (s.pass wait).ret = s.ret := rfl
@[simp] theorem State.pass_cmd (wait : Nat) : (s.pass wait).cmd = s.cmd := rfl
@[simp] theorem State.pass_lanes (wait : Nat) : (s.pass wait).lanes = s.lanes := rfl
@[simp] theorem State.pass_rules (wait : Nat) : (s.pass wait).rules = s.rules := rfl
@[simp] theorem State.pass_curves (wait : Nat) : (s.pass wait).curves = s.curves := rfl
@[simp] theorem State.pass_dir (wait : Nat) : (s.pass wait).dir = s.dir := rfl
@[simp] theorem State.pass_tmc (wait : Nat) : (s.pass wait).tmc = s.tmc := rfl
@[simp] theorem State.pass_mem (wait : Nat) : (s.pass wait).mem = s.mem := rfl
@[simp] theorem State.pass_latch (wait : Nat) : (s.pass wait).latch = s.latch := rfl
@[simp] theorem State.pass_freeCount (wait : Nat) : (s.pass wait).freeCount = s.freeCount := rfl
@[simp] theorem State.pass_pending (wait : Nat) : (s.pass wait).pending = s.pending := rfl

/-! ### reach -/

@[simp] theorem State.reach_resetLow (time : Nat) : (s.reach time).resetLow = s.resetLow := rfl
@[simp] theorem State.reach_link (time : Nat) : (s.reach time).link = s.link := rfl
@[simp] theorem State.reach_ret (time : Nat) : (s.reach time).ret = s.ret := rfl
@[simp] theorem State.reach_cmd (time : Nat) : (s.reach time).cmd = s.cmd := rfl
@[simp] theorem State.reach_lanes (time : Nat) : (s.reach time).lanes = s.lanes := rfl
@[simp] theorem State.reach_rules (time : Nat) : (s.reach time).rules = s.rules := rfl
@[simp] theorem State.reach_curves (time : Nat) : (s.reach time).curves = s.curves := rfl
@[simp] theorem State.reach_dir (time : Nat) : (s.reach time).dir = s.dir := rfl
@[simp] theorem State.reach_tmc (time : Nat) : (s.reach time).tmc = s.tmc := rfl
@[simp] theorem State.reach_mem (time : Nat) : (s.reach time).mem = s.mem := rfl
@[simp] theorem State.reach_latch (time : Nat) : (s.reach time).latch = s.latch := rfl
@[simp] theorem State.reach_freeCount (time : Nat) : (s.reach time).freeCount = s.freeCount := rfl
@[simp] theorem State.reach_pending (time : Nat) : (s.reach time).pending = s.pending := rfl

/-! ### Reads after updates -/

@[simp] theorem State.lane_setLane_same (l : LaneId) (x : Lane) : (s.setLane l x).lane l = x := by
  simp [State.lane, State.setLane]

theorem State.lane_setLane (l m : LaneId) (x : Lane) :
    (s.setLane l x).lane m = if l = m then x else s.lane m := by
  simp only [State.lane, State.setLane, Vector.getElem_set, Fin.ext_iff]

@[simp] theorem State.lane_modLane_same (l : LaneId) (f : Lane → Lane) :
    (s.modLane l f).lane l = f (s.lane l) := State.lane_setLane_same s l _

theorem State.lane_modLane (l m : LaneId) (f : Lane → Lane) :
    (s.modLane l f).lane m = if l = m then f (s.lane l) else s.lane m := State.lane_setLane s l m _

@[simp] theorem State.lane_mapLanes (f : LaneId → Lane → Lane) (l : LaneId) :
    (s.mapLanes f).lane l = f l (s.lane l) := by
  simp [State.lane, State.mapLanes]

@[simp] theorem State.rule_setRule_same (r : RuleId) (x : Rule) : (s.setRule r x).rule r = x := by
  simp [State.rule, State.setRule]

theorem State.rule_setRule (r q : RuleId) (x : Rule) :
    (s.setRule r x).rule q = if r = q then x else s.rule q := by
  simp only [State.rule, State.setRule, Vector.getElem_set, Fin.ext_iff]

@[simp] theorem State.rule_modRule_same (r : RuleId) (f : Rule → Rule) :
    (s.modRule r f).rule r = f (s.rule r) := State.rule_setRule_same s r _

theorem State.rule_modRule (r q : RuleId) (f : Rule → Rule) :
    (s.modRule r f).rule q = if r = q then f (s.rule r) else s.rule q := State.rule_setRule s r q _

@[simp] theorem State.rule_mapRules (f : RuleId → Rule → Rule) (r : RuleId) :
    (s.mapRules f).rule r = f r (s.rule r) := by
  simp [State.rule, State.mapRules]

@[simp] theorem State.group_setGroup_same (g : GroupId) (x : BankGroup) :
    (s.setGroup g x).group g = x := by
  simp [State.group, State.setGroup]

theorem State.group_setGroup (g k : GroupId) (x : BankGroup) :
    (s.setGroup g x).group k = if g = k then x else s.group k := by
  simp only [State.group, State.setGroup, Vector.getElem_set, Fin.ext_iff]

@[simp] theorem State.block_setBlock_same (b : BlockId) (x : Block) :
    (s.setBlock b x).block b = x := by
  simp [State.block, State.setBlock]

theorem State.block_setBlock (b c : BlockId) (x : Block) :
    (s.setBlock b x).block c = if b = c then x else s.block c := by
  simp only [State.block, State.setBlock, Vector.getElem_set, Fin.ext_iff]

@[simp] theorem State.point_setPoint_same (c : CurveId) (k : PointId) (x : CurvePoint) :
    (s.setPoint c k x).point c k = x := by
  simp [State.point, State.setPoint]

/-! ### Reads that an update of another part leaves -/

@[simp] theorem State.rule_setLane (l : LaneId) (x : Lane) (r : RuleId) :
    (s.setLane l x).rule r = s.rule r := rfl

@[simp] theorem State.rule_modLane (l : LaneId) (f : Lane → Lane) (r : RuleId) :
    (s.modLane l f).rule r = s.rule r := rfl

@[simp] theorem State.rule_mapLanes (f : LaneId → Lane → Lane) (r : RuleId) :
    (s.mapLanes f).rule r = s.rule r := by
  simp only [State.rule, State.mapLanes]

@[simp] theorem State.lane_setRule (r : RuleId) (x : Rule) (l : LaneId) :
    (s.setRule r x).lane l = s.lane l := rfl

@[simp] theorem State.lane_modRule (r : RuleId) (f : Rule → Rule) (l : LaneId) :
    (s.modRule r f).lane l = s.lane l := rfl

@[simp] theorem State.lane_mapRules (f : RuleId → Rule → Rule) (l : LaneId) :
    (s.mapRules f).lane l = s.lane l := by
  simp only [State.lane, State.mapRules]

@[simp] theorem State.lane_setGroup (g : GroupId) (x : BankGroup) (l : LaneId) :
    (s.setGroup g x).lane l = s.lane l := rfl

@[simp] theorem State.lane_setBlock (b : BlockId) (x : Block) (l : LaneId) :
    (s.setBlock b x).lane l = s.lane l := rfl

@[simp] theorem State.lane_pass (wait : Nat) (l : LaneId) : (s.pass wait).lane l = s.lane l := rfl

@[simp] theorem State.lane_reach (time : Nat) (l : LaneId) : (s.reach time).lane l = s.lane l := rfl

@[simp] theorem State.group_setLane (l : LaneId) (x : Lane) (g : GroupId) :
    (s.setLane l x).group g = s.group g := rfl

@[simp] theorem State.block_setLane (l : LaneId) (x : Lane) (b : BlockId) :
    (s.setLane l x).block b = s.block b := rfl

@[simp] theorem State.block_modLane (l : LaneId) (f : Lane → Lane) (b : BlockId) :
    (s.modLane l f).block b = s.block b := rfl

end Sys2Proof.Machine
end

