-- ==== Sys2Proof/Laws/Memory.lean ====
section
/-! SUPPORT. Laws/Memory.lean: reads after writes of trace memory, and its canonical form. -/

namespace Sys2Proof.Machine

/-! ## Reads after writes -/

theorem lookupCell_insert_same (cells : List (Nat × Word)) (a : Nat) (w : Word) :
    lookupCell (insertCell cells a w) a = some w := by
  induction cells with
  | nil => simp [insertCell, lookupCell]
  | cons c rest ih =>
    obtain ⟨b, v⟩ := c
    simp only [insertCell]
    split
    · simp [lookupCell]
    · split
      · simp [lookupCell]
      · simp [lookupCell, *]

theorem lookupCell_insert_other (cells : List (Nat × Word)) {a k : Nat} (w : Word) (h : k ≠ a) :
    lookupCell (insertCell cells a w) k = lookupCell cells k := by
  induction cells with
  | nil => simp [insertCell, lookupCell, h]
  | cons c rest ih =>
    obtain ⟨b, v⟩ := c
    simp only [insertCell]
    split
    · next e => subst e; simp [lookupCell, h]
    · split
      · simp only [lookupCell, h, if_false]
        split
        · rw [if_neg (by omega), if_pos (by omega)]
        · rfl
      · simp only [lookupCell, ih]

@[simp] theorem Memory.write_powerOns (m : Memory) (a : Nat) (w : Word) :
    (m.write a w).powerOns = m.powerOns := rfl

/-- A word written is read back. -/
@[simp] theorem Memory.read_write_same (m : Memory) (a : Nat) (w : Word) : (m.write a w).read a = w := by
  simp [Memory.read, Memory.write, lookupCell_insert_same]

/-- A write leaves every other word as it was. -/
theorem Memory.read_write_other (m : Memory) {a k : Nat} (w : Word) (h : k ≠ a) :
    (m.write a w).read k = m.read k := by
  simp [Memory.read, Memory.write, lookupCell_insert_other _ w h]

/-- Words written one after another leave every other word as it was. -/
theorem Memory.read_writeAll_other (cells : List (Nat × Word)) (m : Memory) {k : Nat}
    (h : k ∉ cells.map Prod.fst) : (m.writeAll cells).read k = m.read k := by
  induction cells generalizing m with
  | nil => rfl
  | cons c rest ih =>
    obtain ⟨a, w⟩ := c
    simp only [List.map_cons, List.mem_cons, not_or] at h
    rw [Memory.writeAll, ih _ h.2, Memory.read_write_other _ _ h.1]

/-- Of words written to distinct addresses each is read back. -/
theorem Memory.read_writeAll_mem (cells : List (Nat × Word)) (m : Memory) {a : Nat} {w : Word}
    (distinct : (cells.map Prod.fst).Nodup) (h : (a, w) ∈ cells) : (m.writeAll cells).read a = w := by
  induction cells generalizing m with
  | nil => simp at h
  | cons c rest ih =>
    obtain ⟨b, v⟩ := c
    simp only [List.map_cons, List.nodup_cons] at distinct
    simp only [List.mem_cons, Prod.mk.injEq] at h
    rw [Memory.writeAll]
    rcases h with ⟨rfl, rfl⟩ | h
    · rw [Memory.read_writeAll_other _ _ distinct.1, Memory.read_write_same]
    · exact ih _ distinct.2 h

/-! ## The canonical form -/

theorem cellsRise_insert (cells : List (Nat × Word)) (low : Option Nat) (a : Nat) (w : Word)
    (above : ∀ b, low = some b → b < a) (h : cellsRise low cells = true) :
    cellsRise low (insertCell cells a w) = true := by
  induction cells generalizing low with
  | nil => cases low with
    | none => simp [insertCell, cellsRise]
    | some b => simpa [insertCell, cellsRise] using above b rfl
  | cons c rest ih =>
    obtain ⟨b, v⟩ := c
    simp only [cellsRise, Bool.and_eq_true] at h
    simp only [insertCell]
    split
    · next e =>
      subst e
      simp only [cellsRise, Bool.and_eq_true]
      exact h
    · split
      · next lt =>
        simp only [cellsRise, Bool.and_eq_true, decide_eq_true_eq]
        refine ⟨?_, lt, h.2⟩
        cases low with
        | none => rfl
        | some d => simpa using above d rfl
      · simp only [cellsRise, Bool.and_eq_true]
        refine ⟨h.1, ih (some b) ?_ h.2⟩
        rintro d ⟨⟩
        omega

/-- A write keeps the canonical form. -/
theorem Memory.wf_write (m : Memory) (a : Nat) (w : Word) (h : m.wf = true) : (m.write a w).wf = true :=
  cellsRise_insert m.cells none a w (by simp) h

/-- Writes one after another keep the canonical form. -/
theorem Memory.wf_writeAll (cells : List (Nat × Word)) (m : Memory) (h : m.wf = true) :
    (m.writeAll cells).wf = true := by
  induction cells generalizing m with
  | nil => exact h
  | cons c rest ih => exact ih _ (m.wf_write c.1 c.2 h)

/-- The memory right after reset has the canonical form. -/
theorem Memory.wf_reset : State.reset.mem.wf = true := rfl

end Sys2Proof.Machine
end

