-- ==== Sys2Proof/Laws/TickFrame.lean ====
section
/-! SUPPORT. Laws/TickFrame.lean: what the operations that run within ticks, marks, halts, reports and ends
of rules leave untouched (`TickFrame`), one lemma per shared operation. -/

namespace Sys2Proof.Machine

theorem TickFrame.refl (s : State) : TickFrame s s := ⟨rfl, rfl, rfl, rfl, rfl, rfl, rfl, rfl, rfl⟩

theorem TickFrame.trans {s t u : State} (a : TickFrame s t) (b : TickFrame t u) : TickFrame s u :=
  ⟨b.now.trans a.now, b.resetLow.trans a.resetLow, b.link.trans a.link, b.cmd.trans a.cmd,
    b.curves.trans a.curves, b.tmc.trans a.tmc, b.mem.trans a.mem, b.freeCount.trans a.freeCount,
    b.pending.trans a.pending⟩

/-- A fold of operations that each keep the frame keeps it. -/
theorem tickFrame_foldl {α : Type} (f : State → α → State) (h : ∀ s a, TickFrame s (f s a)) (l : List α)
    (s : State) : TickFrame s (l.foldl f s) := by
  induction l generalizing s with
  | nil => exact .refl s
  | cons a rest ih => exact (h s a).trans (ih (f s a))

/-! ## Updates -/

variable (s : State)

theorem tickFrame_setLane (l : LaneId) (x : Lane) : TickFrame s (s.setLane l x) := by
  constructor <;> simp

theorem tickFrame_modLane (l : LaneId) (f : Lane → Lane) : TickFrame s (s.modLane l f) := by
  constructor <;> simp

theorem tickFrame_mapLanes (f : LaneId → Lane → Lane) : TickFrame s (s.mapLanes f) := by
  constructor <;> simp

theorem tickFrame_setRule (r : RuleId) (x : Rule) : TickFrame s (s.setRule r x) := by
  constructor <;> simp

theorem tickFrame_modRule (r : RuleId) (f : Rule → Rule) : TickFrame s (s.modRule r f) := by
  constructor <;> simp

theorem tickFrame_mapRules (f : RuleId → Rule → Rule) : TickFrame s (s.mapRules f) := by
  constructor <;> simp

theorem tickFrame_setBlock (b : BlockId) (x : Block) : TickFrame s (s.setBlock b x) := by
  constructor <;> simp

theorem tickFrame_ret (r : ReturnSender) : TickFrame s { s with ret := r } :=
  ⟨rfl, rfl, rfl, rfl, rfl, rfl, rfl, rfl, rfl⟩

theorem tickFrame_latch (k : Latch) : TickFrame s { s with latch := k } :=
  ⟨rfl, rfl, rfl, rfl, rfl, rfl, rfl, rfl, rfl⟩

/-! ## Notices, taps, hand-overs -/

theorem tickFrame_offerNotice (kind : NoticeKind) (p : List Word) :
    TickFrame s (offerNotice s kind p) := by
  unfold offerNotice
  split
  · split <;> exact tickFrame_ret s _
  · exact .refl s

theorem tickFrame_offerTap (w : Word) : TickFrame s (offerTap s w) := by
  unfold offerTap
  split <;> exact tickFrame_ret s _

theorem tickFrame_offerLaneEnded (l : LaneId) (r : EndReason) : TickFrame s (offerLaneEnded s l r) :=
  tickFrame_offerNotice s _ _

theorem tickFrame_handOver (l : LaneId) (h : HandOver) : TickFrame s (handOver s l h) := by
  unfold handOver
  dsimp only
  split
  · exact (tickFrame_modLane s _ _).trans (tickFrame_offerTap _ _)
  · exact tickFrame_modLane s _ _

/-! ## Rules -/

theorem tickFrame_offerTrigger (i : Option LaneId) (hits : Rule → Bool) :
    TickFrame s (offerTrigger s i hits) := tickFrame_mapRules s _

theorem tickFrame_deliverOnRule (i : RuleId) (sig : RuleSignal) (l : Option LaneId) :
    TickFrame s (deliverOnRule s i sig l) := tickFrame_offerTrigger s _ _

theorem tickFrame_offerRuleEvent (i : RuleId) (ev : RuleEvent) :
    TickFrame s (offerRuleEvent s i ev) := by
  unfold offerRuleEvent
  dsimp only
  split
  · exact tickFrame_offerNotice s _ _
  · exact .refl s

theorem tickFrame_leaveChains (i : RuleId) : TickFrame s (leaveChains s i) := tickFrame_mapLanes s _

theorem tickFrame_endActivation (i : RuleId) : TickFrame s (endActivation s i) :=
  ((((tickFrame_leaveChains s i).trans (tickFrame_modRule _ i _)).trans
    (tickFrame_offerRuleEvent _ i _)).trans (tickFrame_deliverOnRule _ i _ _)).trans
    (tickFrame_modRule _ i _)

theorem tickFrame_settle : TickFrame s (settle s) := by
  unfold settle
  split
  · exact (tickFrame_mapRules s _).trans (tickFrame_foldl _ tickFrame_endActivation _ _)
  · exact .refl s

theorem tickFrame_returnRules (l : LaneId) : TickFrame s (returnRules s l) := by
  unfold returnRules
  exact (tickFrame_mapLanes s _).trans (tickFrame_mapRules _ _)

theorem tickFrame_settleBut (held : List RuleId) : TickFrame s (settleBut held s) := by
  unfold settleBut
  split
  · exact (tickFrame_mapRules s _).trans (tickFrame_foldl _ tickFrame_endActivation _ _)
  · exact .refl s

/-- Where no end is held back, all that has fallen due is taken. -/
@[simp] theorem settleBut_nil : settleBut [] = settle := by
  funext s
  simp [settleBut, settle]

theorem tickFrame_ruleTableMark (n : Word) : TickFrame s (ruleTableMark s n) := by
  unfold ruleTableMark
  exact (tickFrame_settle s).trans (tickFrame_mapRules _ _)

/-! ## Lanes that leave play, reports -/

theorem tickFrame_dropUse (l : List BlockId) : TickFrame s (dropUse s l) :=
  tickFrame_foldl _ (fun s b => tickFrame_setBlock s b _) l s

theorem tickFrame_addUse (l : List BlockId) : TickFrame s (addUse s l) :=
  tickFrame_foldl _ (fun s b => tickFrame_setBlock s b _) l s

theorem tickFrame_releaseLane (l : LaneId) : TickFrame s (releaseLane s l) := by
  unfold releaseLane
  exact ((tickFrame_returnRules s l).trans (tickFrame_dropUse _ _)).trans (tickFrame_modLane _ l _)

theorem tickFrame_laneOff (l : LaneId) : TickFrame s (laneOff s l) :=
  (tickFrame_releaseLane s l).trans (tickFrame_modLane _ l _)

theorem tickFrame_haltLane (l : LaneId) : TickFrame s (haltLane s l) := by
  unfold haltLane
  split
  · exact (((tickFrame_releaseLane s l).trans (tickFrame_modLane _ l _)).trans
      (tickFrame_offerLaneEnded _ l _)).trans (tickFrame_handOver _ l _)
  · exact .refl s

theorem tickFrame_haltAll : TickFrame s (haltAll s) := tickFrame_foldl _ tickFrame_haltLane _ s

theorem tickFrame_offerLatchSet : TickFrame s (offerLatchSet s) := tickFrame_offerNotice s _ _

theorem tickFrame_holdDescriptor (d : Descriptor) (n : Nat) : TickFrame s (holdDescriptor s d n) :=
  (tickFrame_latch s _).trans (tickFrame_offerLatchSet _)

theorem tickFrame_latchTakes (d : Descriptor) : TickFrame s (latchTakes s d) := by
  unfold latchTakes
  split
  · exact tickFrame_holdDescriptor s _ _
  · split
    · split
      · exact tickFrame_latch s _
      · exact tickFrame_holdDescriptor s _ _
    · exact tickFrame_latch s _
  · split <;> exact tickFrame_latch s _

theorem tickFrame_takeReport (d : Descriptor) : TickFrame s (takeReport s d) := by
  unfold takeReport
  dsimp only
  split
  · exact (tickFrame_latchTakes s _).trans (tickFrame_haltAll _)
  · split
    · exact (tickFrame_latchTakes s _).trans (tickFrame_haltLane _ _)
    · exact tickFrame_latchTakes s _

theorem tickFrame_report (e : ErrorDetail) : TickFrame s (report s e) := tickFrame_takeReport s _

/-! ## Steps of a tick -/

/-- The state that a step of a tick leaves, whether the tick goes on or has ended. -/
def Flow.state {α : Type} : Flow α → State
  | .goOn s _ => s
  | .endedTick s _ => s

theorem tickFrame_countApplied (l : List RuleId) : TickFrame s (countApplied s l) :=
  tickFrame_foldl _ (fun s i => tickFrame_modRule s i _) l s

theorem tickFrame_sourceStage (l : LaneId) : TickFrame s (sourceStage s l).1 := by
  unfold sourceStage
  dsimp only
  split
  · exact tickFrame_countApplied s _
  · split
    · exact tickFrame_setLane s _ _
    · exact .refl s
    · split <;> exact tickFrame_setLane s _ _

theorem tickFrame_vacate (i : RuleId) : TickFrame s (vacate s i) :=
  (tickFrame_leaveChains s i).trans (tickFrame_setRule _ i _)

theorem tickFrame_activate (l : LaneId) (i : RuleId) : TickFrame s (activate s l i).1 := by
  unfold activate
  dsimp only
  exact (((tickFrame_modLane s l _).trans (tickFrame_modRule _ i _)).trans
    (tickFrame_offerRuleEvent _ i _)).trans (tickFrame_deliverOnRule _ i _ _)

theorem tickFrame_missAttempt (i : RuleId) : TickFrame s (missAttempt s i) :=
  ((tickFrame_modRule s i _).trans (tickFrame_offerRuleEvent _ i _)).trans (tickFrame_modRule _ i _)

theorem tickFrame_runAttempts (l : LaneId) (fuel : Nat) (todo done : List RuleId) (s : State) :
    TickFrame s (runAttempts l fuel todo done s).state := by
  induction fuel generalizing todo done s with
  | zero => exact .refl s
  | succ fuel ih =>
    cases todo with
    | nil => exact .refl s
    | cons i todo =>
      simp only [runAttempts]
      split
      · split
        · exact (tickFrame_activate s l i).trans (ih _ _ _)
        · exact (tickFrame_missAttempt s i).trans (ih _ _ _)
      · exact tickFrame_vacate s i

theorem tickFrame_step2 (l : LaneId) (p : Presented) : TickFrame s (step2 s l p).state := by
  cases p with
  | underrun => exact .refl s
  | frozen _ => exact (tickFrame_mapRules s _).trans (tickFrame_runAttempts l _ _ _ _)
  | code e mark =>
    exact (((tickFrame_offerTrigger s _ _).trans (tickFrame_modLane _ l _)).trans
      (tickFrame_mapRules _ _)).trans (tickFrame_runAttempts l _ _ _ _)

theorem tickFrame_step3 (l : LaneId) : TickFrame s (step3 s l).state := by
  unfold step3
  dsimp only
  split
  · exact tickFrame_vacate s _
  · exact (tickFrame_modLane s l _).trans (tickFrame_mapRules _ _)

theorem tickFrame_valueStage (l : List RuleId) (s : State) (e : Int) (c : Bool) :
    TickFrame s (valueStage l s e c).1 := by
  induction l generalizing s e c with
  | nil => exact .refl s
  | cons i rest ih => exact (tickFrame_setRule s i _).trans (ih _ _ _)

theorem tickFrame_step4 (upper : State → State) (l : LaneId) (g : List (RuleId × Bool)) (e : Int) :
    TickFrame s (step4 upper s l g e).state := by
  unfold step4
  dsimp only
  split
  · exact (((tickFrame_valueStage _ s e false).trans (tickFrame_modLane _ l _)).trans
      (tickFrame_settle _))
  · dsimp only [Flow.state]
    exact (((tickFrame_valueStage _ s e false).trans (tickFrame_modLane _ l _)).trans
      (tickFrame_countApplied _ _)).trans (tickFrame_modLane _ l _)

theorem tickFrame_timeStage (l : LaneId) (g : List (RuleId × Bool)) (p : Path) :
    TickFrame s (timeStage s l g p).1 := by
  unfold timeStage
  dsimp only
  split
  · exact .refl s
  · exact tickFrame_countApplied s _

theorem tickFrame_freezeStage (l : LaneId) (f : List RuleId) (g : List (RuleId × Bool)) :
    TickFrame s (freezeStage s l f g).1 := tickFrame_countApplied s _

theorem tickFrame_finishTick (l : LaneId) (g : List (RuleId × Bool)) (c : Chosen) :
    TickFrame s (finishTick s l g c) :=
  (tickFrame_countApplied s _).trans (tickFrame_handOver _ l _)

theorem tickFrame_endOfPlay (l : LaneId) (p : Option FetchWord) : TickFrame s (endOfPlay s l p) := by
  have off (r : EndReason) : TickFrame s (offerLaneEnded (laneOff (settle s) l) l r) :=
    ((tickFrame_settle s).trans (tickFrame_laneOff _ l)).trans (tickFrame_offerLaneEnded _ l r)
  unfold endOfPlay
  split
  · exact .refl s
  · dsimp only
    split
    · exact off _
    · split
      · exact off _
      · exact .refl s

theorem tickFrame_lastSteps (c : Course) (l : LaneId) (x : Sourced) (g : List (RuleId × Bool)) :
    TickFrame s (lastSteps c s l x g).state := by
  unfold lastSteps
  split
  · exact (tickFrame_freezeStage s l _ g).trans (tickFrame_finishTick _ l _ _)
  · exact tickFrame_finishTick s l _ _
  · next e _ _ =>
    have h := tickFrame_step4 s c.upper l g e
    split
    · next k => rw [k] at h; exact h
    · next k =>
      rw [k] at h
      exact ((h.trans (tickFrame_timeStage _ l g _)).trans (tickFrame_finishTick _ l _ _)).trans
        (tickFrame_endOfPlay _ l _)

theorem tickFrame_lostTick (l : LaneId) : TickFrame s (lostTick s l) :=
  (tickFrame_modLane s l _).trans (tickFrame_handOver _ l _)

/-! ## Whole ticks, on any course

A relation that holds wherever the tick frame does, and across what the course brings into a tick, holds
across the tick. -/

/-- A course brings into a tick only what keeps a relation. -/
structure Course.Keeps (R : State → State → Prop) (c : Course) : Prop where
  frame : ∀ {s t}, TickFrame s t → R s t
  trans : ∀ {s t u}, R s t → R t u → R s u
  takeEnds : ∀ s, R s (c.takeEnds s)
  tell : ∀ s e, R s (c.tell s e)
  afterSource : ∀ s, R s (c.afterSource s)
  afterTriggers : ∀ a s, R s (c.afterTriggers a s)

variable {R : State → State → Prop} {c : Course}

theorem Course.Keeps.laterSteps (h : c.Keeps R) (l : LaneId) (x : Sourced) :
    R s (laterSteps c s l x).state := by
  unfold Sys2Proof.Machine.laterSteps
  have h2 := h.trans (h.afterSource s) (h.frame (tickFrame_step2 (c.afterSource s) l x.presented))
  split
  · next k => rw [k] at h2; exact h2
  · next t a k =>
    rw [k] at h2
    have h3 := h.trans (h.trans h2 (h.afterTriggers a t)) (h.frame (tickFrame_step3 (c.afterTriggers a t) l))
    split
    · next k => rw [k] at h3; exact h3
    · next k =>
      rw [k] at h3
      exact h.trans h3 (h.frame (tickFrame_lastSteps _ c l x _))

theorem Course.Keeps.told (h : c.Keeps R) (e : Option ErrorDetail) : R s (c.told s e) := by
  cases e with
  | none => exact h.frame (.refl s)
  | some e => exact h.tell s e

theorem Course.Keeps.fullTick (h : c.Keeps R) (l : LaneId) : R s (fullTick c s l).1 := by
  have h1 := h.frame ((tickFrame_modLane s l Lane.countTickTaken).trans (tickFrame_sourceStage _ l))
  unfold Sys2Proof.Machine.fullTick
  dsimp only
  generalize sourceStage (s.modLane l Lane.countTickTaken) l = source at h1 ⊢
  have h2 := h.trans (h.trans h1 (h.told _ source.2.error)) (h.laterSteps _ l source.2)
  split
  · next k => rw [k] at h2; exact h2
  · next k => rw [k] at h2; exact h.trans h2 (h.tell _ _)

theorem Course.Keeps.haltedTick (h : c.Keeps R) (l : LaneId) : R s (haltedTick c s l).1 := by
  have h1 := tickFrame_modLane s l Lane.countTickTaken
  unfold Sys2Proof.Machine.haltedTick
  dsimp only
  split
  · exact h.frame (h1.trans (tickFrame_handOver _ l _))
  · split
    · exact h.trans (h.trans (h.frame (h1.trans (tickFrame_modLane _ l _))) (h.tell _ _))
        (h.frame (tickFrame_handOver _ l _))
    · exact h.frame (((h1.trans (tickFrame_modLane _ l _)).trans (tickFrame_modLane _ l _)).trans
        (tickFrame_handOver _ l _))

/-- What a tick of a lane may touch. -/
theorem Course.Keeps.laneTick (h : c.Keeps R) (l : LaneId) : R s (laneTick c s l).1 := by
  have h0 := h.takeEnds s
  unfold Sys2Proof.Machine.laneTick
  dsimp only
  split
  · exact h0
  · exact h0
  · split
    · exact h.trans h0 (h.frame (tickFrame_lostTick _ l))
    · exact h.trans h0 (h.fullTick _ l)
  · exact h.trans h0 (h.fullTick _ l)
  · split
    · exact h.trans h0 (h.haltedTick _ l)
    · exact h0

/-- A tick that nothing is taken within keeps the tick frame. -/
theorem Course.whole_keeps : Course.whole.Keeps TickFrame :=
  ⟨id, TickFrame.trans, tickFrame_settle, tickFrame_report, .refl, fun _ => .refl⟩

end Sys2Proof.Machine
end

