-- ==== Sys2Proof/Laws/Commands.lean ====
section
/-! SUPPORT. Laws/Commands.lean: when a meaning answers a next state, and what every record that the
Command Unit takes leaves untouched. -/

namespace Sys2Proof.Machine

/-! ## Inversion -/

/-- A guarded event answers a next state exactly when it is possible, and then that of its effect. -/
theorem whenPossible_eq_next {b : Bool} {m : String} {e t : State} :
    whenPossible b m e = .next t ↔ b = true ∧ e = t := by
  unfold whenPossible
  split <;> simp_all

theorem whenPossible_of {b : Bool} (m : String) (e : State) (h : b = true) :
    whenPossible b m e = .next e := by simp [whenPossible, h]

/-- An event from outside has its effect while RESET_N is high. -/
theorem fromOutside_high {s : State} (wait : Nat) (f : State → State) (h : s.resetLow = false) :
    fromOutside s wait f = .next (f (s.pass wait)) := by simp [fromOutside, h]

theorem fromOutside_low {s : State} (wait : Nat) (f : State → State) (h : s.resetLow = true) :
    fromOutside s wait f = .next s := by simp [fromOutside, h]

theorem headRecord_eq_some {s : State} {p : Place} :
    headRecord s = some p ↔ ∃ rest, Headed s p rest := by
  unfold headRecord Headed
  constructor
  · intro h
    split at h
    · next q rest hu hq =>
      split at h
      · next w => cases h; exact ⟨rest, hu, hq, w⟩
      · cases h
    all_goals cases h
  · rintro ⟨rest, hu, hq, w⟩
    simp [hu, hq, w]

theorem headRecord_of {s : State} {p : Place} {rest : List Place} (h : Headed s p rest) :
    headRecord s = some p := headRecord_eq_some.2 ⟨rest, h⟩

/-- What the taking of a record can answer as a next state: the reply to a record that R167 refuses, or
what the command leaves. -/
theorem takeRecord_next {m : String} {mine : Place → Bool} {run : Place → State → State × Answer}
    {s t : State} (h : takeRecord m mine run s = .next t) :
    ∃ p rest, Headed s p rest ∧ mine p = true ∧
      ((∃ r, judge p = some r ∧ t = answer p (settle s, refusedWith r)) ∨
        (judge p = none ∧ t = answer p (run p (settle s)))) := by
  unfold takeRecord at h
  split at h
  · next p hp =>
    obtain ⟨rest, hr⟩ := headRecord_eq_some.1 hp
    obtain ⟨hm, ht⟩ := whenPossible_eq_next.1 h
    refine ⟨p, rest, hr, hm, ?_⟩
    cases hj : judge p with
    | none => rw [hj] at ht; exact .inr ⟨rfl, ht.symm⟩
    | some r => rw [hj] at ht; exact .inl ⟨r, rfl, ht.symm⟩
  · cases h

theorem judge_carriedOut {c : Command} {p : Place} (h : CarriedOut c p) : judge p = none := by
  obtain ⟨hm, hc, h1, h2⟩ := h
  simp [judge, hm, hc, h1, h2]

theorem isCommand_carriedOut {c : Command} {p : Place} (h : CarriedOut c p) :
    isCommand c p = true := by
  simp [isCommand, h.2.1]

/-- A record that meets no refusal of R167 is carried out by its row. -/
theorem takeRecord_carriedOut {m : String} {mine : Place → Bool}
    {run : Place → State → State × Answer} {s : State} {p : Place} {rest : List Place} {c : Command}
    (h : Headed s p rest) (hc : CarriedOut c p) (hm : mine p = true) :
    takeRecord m mine run s = .next (answer p (run p (settle s))) := by
  unfold takeRecord
  rw [headRecord_of h]
  simp [whenPossible, hm, judge_carriedOut hc]

/-! ## Replies -/

/-- Where the record stands at the head, the answer to it places or holds its reply as R174 says. -/
theorem answer_reply {u : State} {p : Place} {rest : List Place} (st : Status) (w : List Word)
    (hq : u.cmd.queue = p :: rest) :
    answer p (u, .reply st w) = replied u p rest ⟨st, p.tag, p.code, w⟩ := by
  unfold answer placeReply replied
  simp only [hq, Config.recordPlaces, List.tail_cons]

theorem answer_working {u : State} {p : Place} {rest : List Place} (job : Job)
    (hq : u.cmd.queue = p :: rest) : answer p (u, .working job) = heldOn u p rest job := by
  unfold answer holdUnit heldOn
  simp only [hq]

theorem settle_cmd (s : State) : (settle s).cmd = s.cmd := (tickFrame_settle s).cmd

theorem settle_queue {s : State} {p : Place} {rest : List Place} (h : Headed s p rest) :
    (settle s).cmd.queue = p :: rest := by rw [settle_cmd, h.2.1]

/-! ## What every record leaves untouched -/

/-- The reset pin, trace memory, the count of unknown words and the queue of commands are the same. -/
structure RecordFrame (s t : State) : Prop where
  resetLow : t.resetLow = s.resetLow
  mem : t.mem = s.mem
  freeCount : t.freeCount = s.freeCount
  pending : t.pending = s.pending

theorem RecordFrame.refl (s : State) : RecordFrame s s := ⟨rfl, rfl, rfl, rfl⟩

theorem RecordFrame.trans {s t u : State} (a : RecordFrame s t) (b : RecordFrame t u) :
    RecordFrame s u :=
  ⟨b.resetLow.trans a.resetLow, b.mem.trans a.mem, b.freeCount.trans a.freeCount,
    b.pending.trans a.pending⟩

theorem TickFrame.record {s t : State} (h : TickFrame s t) : RecordFrame s t :=
  ⟨h.resetLow, h.mem, h.freeCount, h.pending⟩

theorem recordFrame_placeReply (s : State) (r : Reply) : RecordFrame s (placeReply s r) := by
  unfold placeReply
  split <;> exact ⟨rfl, rfl, rfl, rfl⟩

theorem recordFrame_holdUnit (s : State) (j : Job) : RecordFrame s (holdUnit s j) :=
  ⟨rfl, rfl, rfl, rfl⟩

theorem recordFrame_issueRequest (s : State) (w : Requester) (a : List Nat) (d : Option (List Word))
    (c : Bool) : RecordFrame s (issueRequest s w a d c) := ⟨rfl, rfl, rfl, rfl⟩

theorem recordFrame_answer (p : Place) (r : State × Answer) : RecordFrame r.1 (answer p r) := by
  unfold answer
  split
  · exact recordFrame_placeReply _ _
  · exact recordFrame_holdUnit _ _

/-- A row whose command keeps the frame keeps it. -/
theorem recordFrame_takeRecord {m : String} {mine : Place → Bool}
    {run : Place → State → State × Answer} {s t : State}
    (hrun : ∀ p u, RecordFrame u (run p u).1) (h : takeRecord m mine run s = .next t) :
    RecordFrame s t := by
  obtain ⟨p, rest, -, -, ⟨r, -, rfl⟩ | ⟨-, rfl⟩⟩ := takeRecord_next h
  · exact (tickFrame_settle s).record.trans (recordFrame_answer p (settle s, refusedWith r))
  · exact ((tickFrame_settle s).record.trans (hrun p _)).trans (recordFrame_answer p _)

theorem recordFrame_fillNext (s : State) : RecordFrame s (fillNext s) := by
  unfold fillNext
  split
  · exact .refl s
  · exact ⟨rfl, rfl, rfl, rfl⟩

theorem recordFrame_writeThrough (s : State) (p : Place) (w : Window) (d : List Word) (st : Status) :
    RecordFrame s (writeThrough s p w d st).1 := by
  unfold writeThrough
  dsimp only
  split <;> exact ⟨rfl, rfl, rfl, rfl⟩

theorem tickFrame_primeLane (st : Word) (late : Bool) (s : State) (l : LaneId) :
    TickFrame s (primeLane st late s l) := by
  unfold primeLane
  exact ((tickFrame_addUse s _).trans (tickFrame_modLane _ _ _)).trans (tickFrame_mapRules _ _)

theorem tickFrame_stopLaneNow (s : State) (l : LaneId) : TickFrame s (stopLaneNow s l) := by
  unfold stopLaneNow; split
  · exact (tickFrame_laneOff s l).trans (tickFrame_modLane _ _ _)
  · exact .refl s

theorem tickFrame_stopLaneDrain (s : State) (l : LaneId) : TickFrame s (stopLaneDrain s l) := by
  unfold stopLaneDrain; dsimp only
  split
  · split
    · exact tickFrame_setLane s l _
    · exact tickFrame_stopLaneNow s l
  · exact .refl s
  · exact tickFrame_stopLaneNow s l
  · exact .refl s
  · exact .refl s

theorem recordFrame_linkLost (s : State) : RecordFrame s (linkLost s) :=
  RecordFrame.trans (t := { s with link := { s.link with state := .lost } }) ⟨rfl,rfl,rfl,rfl⟩ (tickFrame_offerNotice _ _ _).record

/-! ## One lemma per command -/

theorem recordFrame_runConfigLane (p : Place) (u : State) :
    RecordFrame u (runConfigLane p u).1 := by
  unfold runConfigLane; (repeat' split) <;> first | exact .refl u | exact ⟨rfl, rfl, rfl, rfl⟩

theorem recordFrame_runSetPlaylist (p : Place) (u : State) :
    RecordFrame u (runSetPlaylist p u).1 := by
  unfold runSetPlaylist; dsimp only; (repeat' split) <;> first | exact .refl u | exact ⟨rfl, rfl, rfl, rfl⟩

theorem recordFrame_runStartLanes (p : Place) (u : State) :
    RecordFrame u (runStartLanes p u).1 := by
  unfold runStartLanes; dsimp only; split
  · exact .refl u
  · exact (tickFrame_foldl _ (fun s l => tickFrame_primeLane _ _ s l) _ u).record

theorem recordFrame_runStop (f : State → LaneId → State) (hf : ∀ s l, TickFrame s (f s l)) (p : Place) (u : State) :
    RecordFrame u (runStop f p u).1 := by
  unfold runStop; dsimp only; split
  · exact .refl u
  · exact (tickFrame_foldl _ hf _ u).record

theorem recordFrame_runDefineBlock (p : Place) (u : State) :
    RecordFrame u (runDefineBlock p u).1 := by
  unfold runDefineBlock; dsimp only; (repeat' split) <;> first | exact .refl u | skip
  unfold defineBlock; dsimp only; split
  · refine RecordFrame.trans ?_ (recordFrame_fillNext _)
    exact ⟨rfl,rfl,rfl,rfl⟩
  · exact ⟨rfl,rfl,rfl,rfl⟩

theorem recordFrame_runDeleteBlock (p : Place) (u : State) :
    RecordFrame u (runDeleteBlock p u).1 := by
  unfold runDeleteBlock; dsimp only; (repeat' split) <;> first | exact .refl u | exact ⟨rfl,rfl,rfl,rfl⟩

theorem recordFrame_runWriteStart (p : Place) (u : State) :
    RecordFrame u (runWriteStart p u).1 := by
  unfold runWriteStart refuseStart; dsimp only; (repeat' split) <;> first | exact ⟨rfl,rfl,rfl,rfl⟩ | exact recordFrame_writeThrough _ _ _ _ _

theorem recordFrame_runWriteContinue (p : Place) (u : State) :
    RecordFrame u (runWriteContinue p u).1 := by
  unfold runWriteContinue; (repeat' split) <;> first | exact ⟨rfl,rfl,rfl,rfl⟩ | exact recordFrame_writeThrough _ _ _ _ _

theorem recordFrame_softReset (u : State) : RecordFrame u (softReset u) := by
  unfold softReset; dsimp only
  exact RecordFrame.trans (t := (u.mapLanes fun _ x => x.softReset).mapRules fun _ r => r.softReset) ((tickFrame_mapLanes u _).trans (tickFrame_mapRules _ _)).record ⟨rfl,rfl,rfl,rfl⟩

theorem recordFrame_runSetReporting (p : Place) (u : State) :
    RecordFrame u (runSetReporting p u).1 := by
  unfold runSetReporting; split
  · exact .refl u
  · dsimp only; unfold applySilenceLimit; dsimp only; split
    · refine RecordFrame.trans ?_ (recordFrame_linkLost _)
      exact ⟨rfl,rfl,rfl,rfl⟩
    · exact ⟨rfl,rfl,rfl,rfl⟩

theorem recordFrame_armAll (u : State) (f : RuleId → Bool) :
    RecordFrame u (armAll u f).1 := (tickFrame_mapRules u _).record

theorem recordFrame_disarmAll (u : State) (f : RuleId → Bool) :
    RecordFrame u (disarmAll u f).1 := by
  unfold disarmAll; dsimp only; exact ((tickFrame_mapLanes u _).trans (tickFrame_mapRules _ _)).record

theorem recordFrame_runArmRule (p : Place) (u : State) : RecordFrame u (runArmRule p u).1 := by
  unfold runArmRule; (repeat' split) <;> first | exact .refl u | exact recordFrame_armAll _ _

theorem recordFrame_runArmGroup (p : Place) (u : State) : RecordFrame u (runArmGroup p u).1 := by
  unfold runArmGroup; (repeat' split) <;> first | exact .refl u | exact recordFrame_armAll _ _

theorem recordFrame_runDisarmRule (p : Place) (u : State) :
    RecordFrame u (runDisarmRule p u).1 := by
  unfold runDisarmRule; (repeat' split) <;> first | exact .refl u | exact recordFrame_disarmAll _ _

theorem recordFrame_runDisarmGroup (p : Place) (u : State) :
    RecordFrame u (runDisarmGroup p u).1 := by
  unfold runDisarmGroup; (repeat' split) <;> first | exact .refl u | exact recordFrame_disarmAll _ _

theorem recordFrame_runLoadRule (p : Place) (u : State) : RecordFrame u (runLoadRule p u).1 := by
  unfold runLoadRule; (repeat' split) <;> first | exact .refl u | exact ⟨rfl, rfl, rfl, rfl⟩

theorem recordFrame_runClearRule (p : Place) (u : State) : RecordFrame u (runClearRule p u).1 := by
  unfold runClearRule; (repeat' split) <;> first | exact .refl u | exact ⟨rfl, rfl, rfl, rfl⟩

theorem recordFrame_runFire (p : Place) (u : State) : RecordFrame u (runFire p u).1 := by
  unfold runFire; split
  · exact (tickFrame_offerTrigger u none (onChannel p.index)).record
  · exact .refl u

theorem recordFrame_runReadRule (p : Place) (u : State) : RecordFrame u (runReadRule p u).1 := by
  unfold runReadRule; (repeat' split) <;> exact .refl u

theorem recordFrame_runReadLane (p : Place) (u : State) : RecordFrame u (runReadLane p u).1 := by
  unfold runReadLane; (repeat' split) <;> exact .refl u

theorem recordFrame_runReadDirectory (p : Place) (u : State) :
    RecordFrame u (runReadDirectory p u).1 := by
  unfold runReadDirectory; dsimp only; (repeat' split) <;> exact .refl u

theorem recordFrame_runReadTrace (p : Place) (u : State) : RecordFrame u (runReadTrace p u).1 := by
  unfold runReadTrace; dsimp only; (repeat' split) <;> first | exact .refl u | exact recordFrame_issueRequest _ _ _ _ _

theorem recordFrame_runResetLane (p : Place) (u : State) : RecordFrame u (runResetLane p u).1 := by
  unfold runResetLane; split
  · exact .refl u
  · next l _ => dsimp only; unfold resetOneLane; exact ((tickFrame_laneOff u l).trans (tickFrame_modLane _ l _)).record

end Sys2Proof.Machine
end

