-- ==== Sys2Proof/Laws/LaneEvents.lean ====
section
/-! SUPPORT. Laws/LaneEvents.lean: what a tick, a mark, a curve load and a fetch may touch, with what is taken
within them. -/

namespace Sys2Proof.Machine

/-- The course of a tick that nothing is taken within is the whole one. -/
theorem courseOf_empty : courseOf report (fun _ s => s) {} = Course.whole := by
  simp [courseOf, Course.whole, heldEnds]
  exact ⟨rfl, rfl, rfl⟩

@[simp] theorem resetAmid_none (run : (State → ErrorDetail → State) → State → TickEnd) (s : State) :
    resetAmid none run s = (run report s).1 := rfl

@[simp] theorem tickWith_empty (s : State) (l : LaneId) :
    tickWith (fun _ s => s) {} s l = (laneTick Course.whole s l).1 := by
  simp [tickWith, courseOf_empty]

theorem tickFrame_takeWithin (s : State) (e : TickEvent) (h : e ≠ .disarm) :
    TickFrame s (takeWithin s e) := by
  cases e with
  | disarm => exact absurd rfl h
  | ruleEnd r =>
    unfold takeWithin
    dsimp only
    split
    · exact tickFrame_endActivation s r
    · exact .refl s

theorem tickFrame_takeLate (attempted : List RuleId) (s : State) (e : TickEvent) (h : e ≠ .disarm) :
    TickFrame s (takeLate attempted s e) := by
  unfold takeLate
  dsimp only
  split
  · exact .refl s
  · exact tickFrame_takeWithin s e h

/-- Events of which none takes a record keep the tick frame where each of them does. -/
theorem tickFrame_takeAll (take : State → TickEvent → State)
    (ht : ∀ s e, e ≠ .disarm → TickFrame s (take s e)) (s : State) (events : List TickEvent) (h : .disarm ∉ events) :
    TickFrame s (events.foldl take s) := by
  induction events generalizing s with
  | nil => exact .refl s
  | cons e rest ih =>
    have he : e ≠ .disarm := fun k => h (k ▸ .head _)
    exact (ht s e he).trans (ih _ fun k => h (.tail _ k))

theorem courseOf_keeps (tell : State → ErrorDetail → State) (ht : ∀ s e, TickFrame s (tell s e))
    (replaced : Nat → State → State) (w : Within) (h : w.takesNoRecord) :
    (courseOf tell replaced w).Keeps TickFrame :=
  ⟨id, TickFrame.trans, fun s => tickFrame_settleBut s _, ht,
    fun s => tickFrame_takeAll _ tickFrame_takeWithin s _ h.2.1,
    fun a s => tickFrame_takeAll _ (tickFrame_takeLate a) s _ h.2.2⟩

/-- A tick within which no record is taken keeps the tick frame. -/
theorem tickFrame_tickWith (w : Within) (h : w.takesNoRecord) (s : State) (l : LaneId) :
    TickFrame s (tickWith (fun _ s => s) w s l) := by
  unfold tickWith
  rw [h.1]
  exact (courseOf_keeps report tickFrame_report _ w h).laneTick s l

theorem tickFrame_laneTakesMark (tick : State → LaneId → State) (h : ∀ s l, TickFrame s (tick s l))
    (s : State) (l : LaneId) (n : Word) : TickFrame s (laneTakesMark tick s l n) := by
  unfold laneTakesMark
  dsimp only
  split
  · split
    · exact (tickFrame_setLane s l _).trans (h _ l)
    · exact .refl s
  · split
    · exact (tickFrame_setLane s l _).trans (h _ l)
    · exact tickFrame_setLane s l _
  · exact .refl s

/-! ## Ticks within which records may be taken -/

/-- Time, the reset pin, the curves, the TMC, trace memory, the count of unknown words and the queue of
commands are the same. -/
structure EventFrame (s t : State) : Prop where
  now : t.now = s.now
  resetLow : t.resetLow = s.resetLow
  curves : t.curves = s.curves
  tmc : t.tmc = s.tmc
  mem : t.mem = s.mem
  freeCount : t.freeCount = s.freeCount
  pending : t.pending = s.pending

theorem EventFrame.refl (s : State) : EventFrame s s := ⟨rfl, rfl, rfl, rfl, rfl, rfl, rfl⟩

theorem EventFrame.trans {s t u : State} (a : EventFrame s t) (b : EventFrame t u) : EventFrame s u :=
  ⟨b.now.trans a.now, b.resetLow.trans a.resetLow, b.curves.trans a.curves, b.tmc.trans a.tmc,
    b.mem.trans a.mem, b.freeCount.trans a.freeCount, b.pending.trans a.pending⟩

theorem TickFrame.event {s t : State} (h : TickFrame s t) : EventFrame s t :=
  ⟨h.now, h.resetLow, h.curves, h.tmc, h.mem, h.freeCount, h.pending⟩

theorem EventFrame.record {s t : State} (h : EventFrame s t) : RecordFrame s t :=
  ⟨h.resetLow, h.mem, h.freeCount, h.pending⟩

theorem eventFrame_foldl {α : Type} (f : State → α → State) (h : ∀ s a, EventFrame s (f s a)) (l : List α)
    (s : State) : EventFrame s (l.foldl f s) := by
  induction l generalizing s with
  | nil => exact .refl s
  | cons a rest ih => exact (h s a).trans (ih (f s a))

theorem eventFrame_answer_reply (p : Place) (s : State) (st : Status) (w : List Word) :
    EventFrame s (answer p (s, .reply st w)) := by
  unfold answer placeReply
  dsimp only
  split <;> exact ⟨rfl, rfl, rfl, rfl, rfl, rfl, rfl⟩

/-- A record taken within another event, whose command gives a reply. -/
theorem eventFrame_takeHead (c : Command) (run : Place → State → State × Answer) (s : State)
    (h : ∀ p s, EventFrame s (run p s).1 ∧ ∃ st w, (run p s).2 = .reply st w) :
    EventFrame s (takeHead c run s) := by
  unfold takeHead
  split
  · next p _ =>
    split
    · split
      · exact eventFrame_answer_reply p s _ _
      · obtain ⟨hf, st, w, hw⟩ := h p s
        have : run p s = ((run p s).1, .reply st w) := by rw [← hw]
        rw [this]
        exact hf.trans (eventFrame_answer_reply p _ st w)
    · exact .refl s
  · exact .refl s

theorem eventFrame_disarmAll (u : State) (f : RuleId → Bool) : EventFrame u (disarmAll u f).1 := by
  unfold disarmAll
  exact ((tickFrame_mapLanes u _).trans (tickFrame_mapRules _ _)).event

theorem runDisarm_replies (p : Place) (s : State) :
    EventFrame s (runDisarm p s).1 ∧ ∃ st w, (runDisarm p s).2 = .reply st w := by
  unfold runDisarm withForm runDisarmRule runDisarmGroup refusedWith
  (repeat' split) <;>
    first
      | exact ⟨.refl s, _, _, rfl⟩
      | exact ⟨eventFrame_disarmAll s _, _, _, rfl⟩

theorem eventFrame_takeWithin (s : State) (e : TickEvent) : EventFrame s (takeWithin s e) := by
  cases e with
  | disarm => exact eventFrame_takeHead _ _ s runDisarm_replies
  | ruleEnd r => exact (tickFrame_takeWithin s (.ruleEnd r) (fun h => nomatch h)).event

theorem eventFrame_takeLate (attempted : List RuleId) (s : State) (e : TickEvent) :
    EventFrame s (takeLate attempted s e) := by
  unfold takeLate
  dsimp only
  split
  · exact .refl s
  · exact eventFrame_takeWithin s e

theorem courseOf_keeps_event (tell : State → ErrorDetail → State) (ht : ∀ s e, EventFrame s (tell s e))
    (replaced : Nat → State → State) (w : Within) : (courseOf tell replaced w).Keeps EventFrame :=
  ⟨TickFrame.event, EventFrame.trans, fun s => (tickFrame_settleBut s _).event, ht,
    fun s => eventFrame_foldl _ eventFrame_takeWithin _ s,
    fun a s => eventFrame_foldl _ (eventFrame_takeLate a) _ s⟩

theorem eventFrame_softReset (s : State) : EventFrame s (softReset s) := by
  unfold softReset
  dsimp only
  exact (((tickFrame_mapLanes s _).trans (tickFrame_mapRules _ _)).event).trans
    ⟨rfl, rfl, rfl, rfl, rfl, rfl, rfl⟩
theorem eventFrame_tellAmong (told : List ErrorDetail) (s : State) (e : ErrorDetail) :
    EventFrame s (tellAmong told s e) := by
  unfold tellAmong
  split
  · exact (tickFrame_report s e).event
  · exact .refl s

theorem tickFrame_arrive (a : Arrived) (sent : ReturnSender) (s : State) : TickFrame s (arrive a sent s) := by
  have taps := (tickFrame_foldl _ (fun s n => tickFrame_offerNotice s n.kind n.payload)
    (sent.notices.drop a.notices) s).trans (tickFrame_foldl _ tickFrame_offerTap (sent.taps.drop a.taps) _)
  exact taps.trans (tickFrame_ret _ _)

theorem eventFrame_resetThenArrive (a : Arrived) (late : List ErrorDetail) (s : State) :
    EventFrame s (resetThenArrive a late s) := by
  unfold resetThenArrive
  dsimp only
  exact (eventFrame_takeHead _ _ s fun _ u => ⟨eventFrame_softReset u, _, _, rfl⟩).trans
    (((tickFrame_foldl _ tickFrame_takeReport _ _).trans (tickFrame_arrive a _ _)).trans
      (tickFrame_foldl _ tickFrame_takeReport _ _)).event

/-- What an event leaves untouched however its errors are told, it leaves untouched with a soft reset taken
before all of it has arrived. -/
theorem eventFrame_resetAmid (reset : Option Arrived)
    (run : (State → ErrorDetail → State) → State → TickEnd)
    (h : ∀ tell, (∀ s e, EventFrame s (tell s e)) → ∀ s, EventFrame s (run tell s).1) (s : State) :
    EventFrame s (resetAmid reset run s) := by
  have whole := h report (fun s e => (tickFrame_report s e).event) s
  cases reset with
  | none => exact whole
  | some a =>
    simp only [resetAmid]
    split
    · exact (((tickFrame_ret s _).event.trans (h _ (eventFrame_tellAmong _) _)).trans
        (tickFrame_settle _).event).trans (eventFrame_resetThenArrive a _ _)
    · exact whole

/-! ### Relations that also hold across replaced points -/

section Replaced

variable {R : State → State → Prop} {replaced : Nat → State → State}

/-- A relation that holds across the event frame and the replaced points holds across a tick that reads
them. -/
theorem tickWith_keeps (of : ∀ {s t}, EventFrame s t → R s t) (trans : ∀ {s t u}, R s t → R t u → R s u)
    (h : ∀ n s, R s (replaced n s)) (w : Within) (s : State) (l : LaneId) :
    R s (tickWith replaced w s l) := by
  unfold tickWith
  exact trans (trans (h _ s) (of (eventFrame_resetAmid _ _
    (fun tell ht s => (courseOf_keeps_event tell ht replaced w).laneTick s l) _))) (h _ _)

theorem takeMark_keeps (of : ∀ {s t}, EventFrame s t → R s t) (trans : ∀ {s t u}, R s t → R t u → R s u)
    (h : ∀ n s, R s (replaced n s)) (n : Word) (s : State) (t : MarkTaker) :
    R s (takeMark (tickWith replaced) n s t) := by
  cases t with
  | ruleTable => exact of (tickFrame_ruleTableMark s n).event
  | lane l w =>
    have set (x : Lane) : R s (s.setLane l x) := of (tickFrame_setLane s l x).event
    have tick (s : State) : R s (tickWith replaced w s l) := tickWith_keeps of trans h w s l
    simp only [takeMark, laneTakesMark]
    split
    · split
      · exact trans (set _) (tick _)
      · exact of (.refl s)
    · split
      · exact trans (set _) (tick _)
      · exact set _
    · exact of (.refl s)

theorem eventFrame_checkJump (s : State) (n : Word) : EventFrame s (checkJump s n) := by
  unfold checkJump
  dsimp only
  split
  · exact .refl s
  · exact EventFrame.trans (t := { s with link := { s.link with cycleJumps := countUp s.link.cycleJumps } })
      ⟨rfl, rfl, rfl, rfl, rfl, rfl, rfl⟩ (tickFrame_offerNotice _ _ _).event

/-- What holds across the event frame and the replaced points holds across a mark. -/
theorem cycleMark_keeps (of : ∀ {s t}, EventFrame s t → R s t) (trans : ∀ {s t u}, R s t → R t u → R s u)
    (h : ∀ n s, R s (replaced n s)) (n : Word) (order : List MarkTaker) (s : State) :
    R s (cycleMark replaced n order s) := by
  have taken (l : List MarkTaker) (s : State) : R s (l.foldl (takeMark (tickWith replaced) n) s) := by
    induction l generalizing s with
    | nil => exact of (.refl s)
    | cons t rest ih => exact trans (takeMark_keeps of trans h n s t) (ih _)
  have link (u : State) : EventFrame u (linkTakesMark u n) := ⟨rfl, rfl, rfl, rfl, rfl, rfl, rfl⟩
  unfold cycleMark
  exact trans (of (((tickFrame_settle s).event.trans (eventFrame_checkJump _ n)).trans (link _))) (taken _ _)

end Replaced

/-- What any tick outside a curve load leaves untouched. -/
theorem eventFrame_tickWith (w : Within) (s : State) (l : LaneId) :
    EventFrame s (tickWith (fun _ s => s) w s l) :=
  tickWith_keeps id EventFrame.trans (fun _ => .refl) w s l

/-- What any mark outside a curve load leaves untouched. -/
theorem eventFrame_cycleMark (n : Word) (order : List MarkTaker) (s : State) :
    EventFrame s (cycleMark (fun _ s => s) n order s) :=
  cycleMark_keeps id EventFrame.trans (fun _ => .refl) n order s

/-! ## Curve loads -/

theorem recordFrame_timedTick {replaced : Nat → State → State} (hr : ∀ n s, RecordFrame s (replaced n s))
    {t : TickOf} {s u : State} (h : timedTick replaced t s = some u) : RecordFrame s u := by
  unfold timedTick at h
  split at h
  · cases h
    exact RecordFrame.trans (t := (s.reach _).modLane t.lane _) ⟨rfl, rfl, rfl, rfl⟩
      (tickWith_keeps EventFrame.record RecordFrame.trans hr t.within _ t.lane)
  · cases h
  · cases h

theorem recordFrame_takeAmong {replaced : Nat → State → State} (hr : ∀ n s, RecordFrame s (replaced n s))
    (s : State) (e : CurveEvent) : RecordFrame s (takeAmong replaced s e) := by
  cases e with
  | tick t =>
    simp only [takeAmong]
    cases h : timedTick replaced t s with
    | none => exact .refl s
    | some u => exact recordFrame_timedTick hr h
  | mark n order => exact cycleMark_keeps EventFrame.record RecordFrame.trans hr n order s

theorem recordFrame_replacePoint (c : CurveId) (k : Nat) (v : Word) (s : State) :
    RecordFrame s (replacePoint c k v s) := by
  unfold replacePoint
  split
  · exact ⟨rfl, rfl, rfl, rfl⟩
  · exact .refl s

theorem recordFrame_replacePoints (c : CurveId) (v : List Word) (k : Nat) (s : State) :
    RecordFrame s (replacePoints c k v s) := by
  induction v generalizing k s with
  | nil => exact .refl s
  | cons x rest ih => exact (recordFrame_replacePoint c k x s).trans (ih _ _)

theorem recordFrame_replaceAmong (among : List CurveEvent) (c : CurveId) (k : Nat) (v : List Word)
    (s : State) : RecordFrame s (replaceAmong among c k v s) := by
  unfold replaceAmong
  refine RecordFrame.trans ?_ (recordFrame_replacePoints c v k _)
  induction among generalizing s with
  | nil => exact .refl s
  | cons e rest ih =>
    exact (recordFrame_takeAmong (fun n s => recordFrame_replacePoints c (v.take n) k s) s e).trans (ih _)

theorem recordFrame_runLoadCurve (among : List CurveEvent) (p : Place) (u : State) :
    RecordFrame u (runLoadCurve among p u).1 := by
  unfold runLoadCurve
  dsimp only
  (repeat' split) <;> first | exact .refl u | exact recordFrame_replaceAmong _ _ _ _ u

/-- A curve load that no tick falls into replaces its points and nothing else. -/
@[simp] theorem replaceAmong_nil (c : CurveId) (k : Nat) (v : List Word) (s : State) :
    replaceAmong [] c k v s = replacePoints c k v s := rfl

end Sys2Proof.Machine
end

