-- ==== Sys2Proof/Laws/Operations.lean ====
section
/-! SUPPORT. Laws/Operations.lean: what the shared operations leave as it is, when a record's row answers
with a reply, which access is in flight, and that the arbiter's order is an order. -/

namespace Sys2Proof.Machine

/-! ## Numbers in a range -/

theorem toFin?_none {n bound : Nat} (h : bound ≤ n) : toFin? n bound = none := by
  simp [toFin?]
  omega

theorem toFin?_val {n bound : Nat} (k : Fin bound) (h : n = k.val) : toFin? n bound = some k := by
  subst h
  simp [toFin?]

/-! ## Ends of delays and durations -/

@[simp] theorem offerNotice_latch (s : State) (k : NoticeKind) (p : List Word) :
    (offerNotice s k p).latch = s.latch := by
  unfold offerNotice
  (repeat' split) <;> rfl

@[simp] theorem offerNotice_dir (s : State) (k : NoticeKind) (p : List Word) :
    (offerNotice s k p).dir = s.dir := by
  unfold offerNotice
  (repeat' split) <;> rfl

@[simp] theorem offerNotice_lanes (s : State) (k : NoticeKind) (p : List Word) :
    (offerNotice s k p).lanes = s.lanes := by
  unfold offerNotice
  (repeat' split) <;> rfl

@[simp] theorem offerNotice_rules (s : State) (k : NoticeKind) (p : List Word) :
    (offerNotice s k p).rules = s.rules := by
  unfold offerNotice
  (repeat' split) <;> rfl

theorem offerRuleEvent_latch (s : State) (i : RuleId) (ev : RuleEvent) :
    (offerRuleEvent s i ev).latch = s.latch := by
  unfold offerRuleEvent
  dsimp only
  split
  · exact offerNotice_latch _ _ _
  · rfl

theorem offerRuleEvent_dir (s : State) (i : RuleId) (ev : RuleEvent) :
    (offerRuleEvent s i ev).dir = s.dir := by
  unfold offerRuleEvent
  dsimp only
  split
  · exact offerNotice_dir _ _ _
  · rfl

theorem endActivation_latch (s : State) (i : RuleId) : (endActivation s i).latch = s.latch := by
  simp [endActivation, deliverOnRule, offerTrigger, leaveChains, offerRuleEvent_latch]

theorem endActivation_dir (s : State) (i : RuleId) : (endActivation s i).dir = s.dir := by
  simp [endActivation, deliverOnRule, offerTrigger, leaveChains, offerRuleEvent_dir]

theorem settle_latch (s : State) : (settle s).latch = s.latch := by
  have ends : ∀ (l : List RuleId) (u : State), (l.foldl endActivation u).latch = u.latch := by
    intro l
    induction l with
    | nil => intro u; rfl
    | cons a l ih => intro u; simp [ih, endActivation_latch]
  unfold settle
  split
  · simp [ends]
  · rfl

theorem settle_dir (s : State) : (settle s).dir = s.dir := by
  have ends : ∀ (l : List RuleId) (u : State), (l.foldl endActivation u).dir = u.dir := by
    intro l
    induction l with
    | nil => intro u; rfl
    | cons a l ih => intro u; simp [ih, endActivation_dir]
  unfold settle
  split
  · simp [ends]
  · rfl

/-- Where no delay and no duration has run out, there is nothing to take. -/
theorem settle_of_not_unsettled {s : State} (h : unsettled s = false) : settle s = s := by
  unfold settle
  rw [h]
  rfl

/-! ## Records -/

/-- A record that meets no refusal of R167 and whose command gives a reply is answered with it. -/
theorem takeRecord_reply {m : String} {mine : Place → Bool} {run : Place → State → State × Answer}
    {s v : State} {p : Place} {rest : List Place} {c : Command} {st : Status} {w : List Word}
    (h : Headed s p rest) (hc : CarriedOut c p) (hm : mine p = true)
    (hr : run p (settle s) = (v, .reply st w)) (hq : v.cmd.queue = (settle s).cmd.queue) :
    takeRecord m mine run s = .next (replied v p rest ⟨st, p.tag, p.code, w⟩) := by
  rw [takeRecord_carriedOut h hc hm, hr, answer_reply _ _ (hq.trans (settle_queue h))]

/-- A record whose command takes time holds the unit. -/
theorem takeRecord_working {m : String} {mine : Place → Bool} {run : Place → State → State × Answer}
    {s v : State} {p : Place} {rest : List Place} {c : Command} {job : Job}
    (h : Headed s p rest) (hc : CarriedOut c p) (hm : mine p = true)
    (hr : run p (settle s) = (v, .working job)) (hq : v.cmd.queue = (settle s).cmd.queue) :
    takeRecord m mine run s = .next (heldOn v p rest job) := by
  rw [takeRecord_carriedOut h hc hm, hr, answer_working _ (hq.trans (settle_queue h))]

/-- A record that R167 refuses is answered so by any row that takes it. -/
theorem takeRecord_refused {m : String} {mine : Place → Bool} {run : Place → State → State × Answer}
    {s : State} {p : Place} {rest : List Place} {st : Status}
    (h : Headed s p rest) (hj : judge p = some st) (hm : mine p = true) :
    takeRecord m mine run s = .next (replied (settle s) p rest ⟨st, p.tag, p.code, []⟩) := by
  unfold takeRecord
  rw [headRecord_of h]
  simp [whenPossible, hm, hj, refusedWith, answer_reply _ _ (settle_queue h)]

/-! ## Accesses -/

/-- The access in flight of a requester that has only one. -/
theorem inFlight_of {s : State} {w : Requester} {g : GroupId} {a : Access}
    (h : (s.group g).access = some a) (hr : a.request.requester = w)
    (only : ∀ k b, (s.group k).access = some b → b.request.requester = w → k = g) :
    inFlight s w = some (g, a) := by
  have found : ∀ l : List GroupId, g ∈ l → (l.findSome? fun g =>
      match (s.group g).access with
      | some a => if a.request.requester = w then some (g, a) else none
      | none => none) = some (g, a) := by
    intro l
    induction l with
    | nil => intro hg; cases hg
    | cons k l ih =>
      intro hg
      rw [List.findSome?_cons]
      cases hk : (s.group k).access with
      | none =>
        have hne : k ≠ g := by rintro rfl; rw [hk] at h; cases h
        exact ih (by simpa [Ne.symm hne] using hg)
      | some b =>
        by_cases hb : b.request.requester = w
        · have he := only k b hk hb
          subst he
          rw [hk] at h
          cases h
          simp [hr]
        · have hne : k ≠ g := by rintro rfl; rw [hk] at h; cases h; exact hb hr
          simp [hb]
          exact ih (by simpa [Ne.symm hne] using hg)
  exact found _ (List.mem_finRange g)

@[simp] theorem completeAccess_lane (s : State) (g : GroupId) (a : Access) (l : LaneId) :
    (completeAccess s g a).lane l = s.lane l := by
  unfold completeAccess
  cases a.request.data <;> rfl

@[simp] theorem completeAccess_dir (s : State) (g : GroupId) (a : Access) :
    (completeAccess s g a).dir = s.dir := by
  unfold completeAccess
  cases a.request.data <;> rfl

@[simp] theorem completeAccess_link (s : State) (g : GroupId) (a : Access) :
    (completeAccess s g a).link = s.link := by
  unfold completeAccess
  cases a.request.data <;> rfl

@[simp] theorem completeAccess_cmd (s : State) (g : GroupId) (a : Access) :
    (completeAccess s g a).cmd = s.cmd := by
  unfold completeAccess
  cases a.request.data <;> rfl

/-! ## Arbitration -/

theorem grantedBefore_irrefl (s : State) (a : Request) : grantedBefore s a a = false := by
  unfold grantedBefore
  simp

theorem grantedBefore_asymm (s : State) (a b : Request) (h : grantedBefore s b a = true) :
    grantedBefore s a b = false := by
  unfold grantedBefore at *
  simp at *
  omega

theorem grantedBefore_trans_false (s : State) (a b c : Request) (h : grantedBefore s b a = false)
    (k : grantedBefore s c b = false) : grantedBefore s c a = false := by
  unfold grantedBefore at *
  simp at *
  omega

end Sys2Proof.Machine
end

