-- ==== Sys2Proof/Laws/PerInstr.lean ====
section
/-! SUPPORT. Laws/PerInstr.lean: statements about every command as syntax, one lemma per constructor. -/

namespace Sys2Proof.Laws.RecordRow

open Sys2Proof.Machine

/-- A row that takes a record carries nothing of its own that could be ill formed, since its parameters
stand in the record (R168), but for the marks that LOAD_CURVE names, which nobody takes twice (R79). -/
def Statement (i : Instr) : Prop :=
  (managementRow i).isSome = true →
    (∀ among, i = .loadCurve among → ∀ e ∈ among, e.fits = true) → i.wellFormed = true

theorem hardReset (powerOn : Bool) : Statement (.hardReset powerOn) := fun h => nomatch h
theorem resetNRisingEdge : Statement .resetNRisingEdge := fun h => nomatch h
theorem cycleMark (wait : Nat) (number : Word) (order : List MarkTaker) : Statement (.cycleMark wait number order) := fun h => nomatch h
theorem sample (wait : Nat) (data : Word) : Statement (.sample wait data) := fun h => nomatch h
theorem header (wait : Nat) (data : Word) : Statement (.header wait data) := fun h => nomatch h
theorem payload (wait : Nat) (data : Word) : Statement (.payload wait data) := fun h => nomatch h
theorem linkWordBad (wait : Nat) : Statement (.linkWordBad wait) := fun h => nomatch h
theorem silenceTimerExpiry : Statement .silenceTimerExpiry := fun h => nomatch h
theorem presenceChange (wait : Nat) (l : LaneId) (present : Bool) : Statement (.presenceChange wait l present) := fun h => nomatch h
theorem storeCorruption (wait : Nat) (item : Corruption) : Statement (.storeCorruption wait item) := fun h => nomatch h
theorem timedTick (tick : TickOf) : Statement (.timedTick tick) := fun h => nomatch h
theorem ruleDelayEnd (r : RuleId) : Statement (.ruleDelayEnd r) := fun h => nomatch h
theorem ruleDurationEnd (ending : EndOf) : Statement (.ruleDurationEnd ending) := fun h => nomatch h
theorem portTransferComplete (l : LaneId) : Statement (.portTransferComplete l) := fun h => nomatch h
theorem fetchIssue (fetch : FetchOf) : Statement (.fetchIssue fetch) := fun h => nomatch h
theorem tmcGrant : Statement .tmcGrant := fun h => nomatch h
theorem fetchComplete (l : LaneId) : Statement (.fetchComplete l) := fun h => nomatch h
theorem voidedFetchComplete (l : LaneId) : Statement (.voidedFetchComplete l) := fun h => nomatch h
theorem fillWriteComplete : Statement .fillWriteComplete := fun h => nomatch h
theorem traceWriteComplete : Statement .traceWriteComplete := fun h => nomatch h
theorem traceReadComplete : Statement .traceReadComplete := fun h => nomatch h
theorem groupBusyEnd (g : GroupId) : Statement (.groupBusyEnd g) := fun h => nomatch h
theorem refreshDue (g : GroupId) : Statement (.refreshDue g) := fun h => nomatch h
theorem refreshStart (g : GroupId) : Statement (.refreshStart g) := fun h => nomatch h
theorem refreshEnd (g : GroupId) : Statement (.refreshEnd g) := fun h => nomatch h
theorem returnWordSent : Statement .returnWordSent := fun h => nomatch h
theorem blockedReplyPlaced : Statement .blockedReplyPlaced := fun h => nomatch h
theorem identify : Statement .identify := fun _ _ => rfl
theorem status : Statement .status := fun _ _ => rfl
theorem reset : Statement .reset := fun _ _ => rfl
theorem setReporting : Statement .setReporting := fun _ _ => rfl
theorem configLane : Statement .configLane := fun _ _ => rfl
theorem setPlaylist : Statement .setPlaylist := fun _ _ => rfl
theorem startLanes : Statement .startLanes := fun _ _ => rfl
theorem stopLanesNow : Statement .stopLanesNow := fun _ _ => rfl
theorem stopLanesDrain : Statement .stopLanesDrain := fun _ _ => rfl
theorem resetLane : Statement .resetLane := fun _ _ => rfl
theorem readLane : Statement .readLane := fun _ _ => rfl
theorem loadCurve (among : List CurveEvent) : Statement (.loadCurve among) := fun _ h => by
  simpa [Instr.wellFormed] using h among rfl
theorem defineBlock : Statement .defineBlock := fun _ _ => rfl
theorem deleteBlock : Statement .deleteBlock := fun _ _ => rfl
theorem readDirectory : Statement .readDirectory := fun _ _ => rfl
theorem writeTraceStart : Statement .writeTraceStart := fun _ _ => rfl
theorem writeTraceContinue : Statement .writeTraceContinue := fun _ _ => rfl
theorem readTrace : Statement .readTrace := fun _ _ => rfl
theorem loadRule : Statement .loadRule := fun _ _ => rfl
theorem clearRule : Statement .clearRule := fun _ _ => rfl
theorem armRule : Statement .armRule := fun _ _ => rfl
theorem armGroup : Statement .armGroup := fun _ _ => rfl
theorem disarmRule : Statement .disarmRule := fun _ _ => rfl
theorem disarmGroup : Statement .disarmGroup := fun _ _ => rfl
theorem fire : Statement .fire := fun _ _ => rfl
theorem readRule : Statement .readRule := fun _ _ => rfl
theorem readLatch : Statement .readLatch := fun _ _ => rfl
theorem clearLatch : Statement .clearLatch := fun _ _ => rfl
theorem unknownCommandRecord : Statement .unknownCommandRecord := fun h => nomatch h

end Sys2Proof.Laws.RecordRow
end

