-- ==== Sys2Proof/Tests/Slice0.lean ====
section
/-! SUPPORT. Tests/Slice0.lean: the model's own tests. Expected values are the spec's worked examples and
tables, or follow from its layouts by hand; each test names its source. The last part shows, for every
statement with hypotheses, a concrete state and operands that meet them. -/

namespace Sys2Proof.Tests

open Sys2Proof.Machine

set_option Elab.async false

/-! ## Builders -/

/-- A COMPLETE record with tag 7, waiting. -/
def rec (code index : Nat) (payload : List Word) : Place :=
  ⟨.waiting, code, 7, payload.length, index, payload, .complete⟩

/-- The state with this one record at the head of the command queue. -/
def asked (s : State) (p : Place) : State := { s with cmd := { s.cmd with queue := [p] } }

/-- The next state of an outcome, or the state it came from. -/
def after (s : State) (c : Instr) : State :=
  match exec c s with
  | .next t => t
  | .fault _ => s
  | .refused _ => s

/-- Whether a command is carried out. -/
def goes (s : State) (c : Instr) : Bool :=
  match exec c s with
  | .next _ => true
  | .fault _ => false
  | .refused _ => false

/-- The last reply placed, as status and payload. -/
def lastReply (s : State) : Option (Status × List Word) :=
  s.ret.replies.getLast?.map fun r => (r.status, r.payload)

/-- The reset state with lane 3 changed. -/
def lane3 (f : Lane → Lane) : State := State.reset.modLane 3 f

/-! ## Well-formed commands -/

theorem test_wf_mark_order : (Instr.cycleMark 0 5 [.ruleTable, .lane 3]).wellFormed = true := by decide
theorem test_illformed_mark_order :
    (Instr.cycleMark 0 5 [.lane 3, .lane 3]).wellFormed = false := by decide
theorem test_wf_marks_among :
    (Instr.loadCurve [.mark 5 [.lane 3, .ruleTable], .tick ⟨3, { low := 2 }⟩]).wellFormed = true := by decide
theorem test_illformed_marks_among :
    (Instr.loadCurve [.mark 5 [.lane 3, .lane 3 { high := 1 }]]).wellFormed = false := by decide

/-- A rule record whose fields all fit. -/
def fields : RuleFields := ⟨3, 3, 1, 2, .invert, .immediate, .ticks, 0, 5, 1, 0, true⟩

/-- A playlist entry whose fields all fit. -/
def entry : PlaylistEntry := ⟨5, 1, 10, 20, .forward, 1, 1, .stop⟩

theorem test_wf_corruption :
    (Instr.storeCorruption 0 (.ruleRecord 4 fields false)).wellFormed = true ∧
    (Instr.storeCorruption 0 (.playlistEntry 3 15 entry false)).wellFormed = true := by decide
theorem test_illformed_rule_fields :
    [{ fields with lane := 32 }, { fields with watch := 32 }, { fields with group := 16 },
      { fields with priority := 16 }, { fields with delay := 65536 }, { fields with duration := 16777216 },
      { fields with repeats := 256 }, { fields with intermittency := 256 }].all (fun f =>
        !(Instr.storeCorruption 0 (.ruleRecord 4 f false)).wellFormed) = true := by decide
/-- R116: each parameter just outside what its kind can hold. -/
theorem test_illformed_action :
    [Action.stuck 8388608, .offset (-8388609), .gain 32768 0, .gain 0 8388608, .noise 8388608 1,
      .noise 1 8388608, .ramp 8388608 0, .ramp 0 8388608, .clamp (-8388609) 0, .clamp 0 8388608, .delay 128,
      .seqJump 16].all (fun a =>
        !(Instr.storeCorruption 0 (.ruleRecord 4 { fields with action := a } false)).wellFormed) = true := by
  decide
theorem test_illformed_entry_fields :
    [{ entry with column := 16 }, { entry with firstRow := 536870912 },
      { entry with lastRow := 536870912 }, { entry with step := 32 }, { entry with passes := 65536 },
      { entry with ending := .loop 16 }].all (fun e =>
        !(Instr.storeCorruption 0 (.playlistEntry 3 0 e false)).wellFormed) = true := by decide
theorem test_illformed_entry_index :
    (Instr.storeCorruption 0 (.playlistEntry 3 16 entry false)).wellFormed = false := by decide

/-! ## Inbound link words (R148; 10, Link word) -/

/-- CYCLE 5: data 5 has two bits set and kind 0 none, so the parity bit is 1. -/
theorem test_link_word_cycle :
    inboundCommand 0 [] (BitVec.ofNat 35 (5 + 0 * 2 ^ 32 + 2 ^ 34)) = .cycleMark 0 5 [] := by decide
/-- SAMPLE with data 3 and kind 1: three bits set, parity 0. -/
theorem test_link_word_sample :
    inboundCommand 0 [] (BitVec.ofNat 35 (3 + 1 * 2 ^ 32)) = .sample 0 3 := by decide
theorem test_link_word_header :
    inboundCommand 0 [] (BitVec.ofNat 35 (3 + 2 * 2 ^ 32)) = .header 0 3 := by decide
theorem test_link_word_payload :
    inboundCommand 0 [] (BitVec.ofNat 35 (1 + 3 * 2 ^ 32)) = .payload 0 1 := by decide
/-- The same word with its parity bit turned is bad whatever its kind. -/
theorem test_link_word_bad :
    inboundCommand 0 [] (BitVec.ofNat 35 (5 + 0 * 2 ^ 32)) = .linkWordBad 0 := by decide

/-! ## Arithmetic (04, 05, 06, 10: tables and examples) -/

/-- R118's table. -/
theorem test_gain :
    (valueAction (.gain 4915 (-10000)) 1234567 1 0).e = 1471420 ∧
    (valueAction (.gain 2048 0) (-3) 1 0).e = -2 ∧ (valueAction (.gain 2048 0) 3 1 0).e = 2 ∧
    (valueAction (.gain 8192 0) 8000000 1 0) = ⟨8388607, true, 1, 0⟩ ∧
    (valueAction (.gain 8192 (-5000000)) 6000000 1 0) = ⟨7000000, false, 1, 0⟩ := by decide
/-- R117's table. -/
theorem test_offset :
    valueAction (.offset 300000) 8200000 1 0 = ⟨8388607, true, 1, 0⟩ ∧
    valueAction (.offset (-300000)) (-8200000) 1 0 = ⟨-8388608, true, 1, 0⟩ := by decide
/-- R120's table: four steps of RAMP(1,000, 2,500). -/
theorem test_ramp :
    rampStep 0 1000 2500 = 1000 ∧ rampStep 1000 1000 2500 = 2000 ∧ rampStep 2000 1000 2500 = 2500 ∧
    rampStep 2500 1000 2500 = 2500 := by decide
/-- R74's table and R76's: U = 24 under the reset curve gives 2. -/
theorem test_curve :
    plainCode (-8388608) = 0 ∧ plainCode (-1) = 524287 ∧ plainCode 16 = 524289 ∧
    curveStage State.reset (some 0) (24 - 8388608) = .code 2 ∧
    curveStage State.reset (some 0) 8388607 = .code 1048575 := by decide +kernel
/-- R3's examples: the longest word time raises DIVISOR to 1,741. -/
theorem test_word_time :
    wordTime .frame .w20 255 = 174080 ∧ divisorFor 10 174080 = 1741 ∧ divisorFor 1741 174080 = 1741 :=
  by decide
/-- R106: the step from 1 gives 2; from 2 ^ 15 the parity of bits 15, 13, 12, 10 is 1. -/
theorem test_gate_step : gateStep 1 = 2 ∧ gateStep 0x8000 = 1 ∧ gateStep 0xA000 = 0x4000 := by decide
/-- R119, 1: bits 22 and 17. -/
theorem test_noise_step :
    noiseStep 1 = 2 ∧ noiseStep 0x400000 = 1 ∧ noiseStep 0x420000 = 0x040000 := by decide
/-- 00, Conventions: serial comparison across the wrap. -/
theorem test_serial :
    cycleReached 1 0xFFFFFFFF = true ∧ cycleReached 0xFFFFFFFF 1 = false ∧ cycleReached 5 5 = true ∧
    cycleReached 0 0x80000000 = false := by decide
/-- R6: a start cycle 2³¹ or more ahead counts as already reached. -/
theorem test_start_reached :
    startReached 0 0x80000000 = true ∧ startReached 0 0x80000001 = true ∧
    startReached 0 0x7FFFFFFF = false := by decide

/-! ## Commands, one step each -/

/-- R175. -/
theorem test_identify :
    lastReply (after (asked State.reset (rec 0x01 0 [])) .identify) =
      some (.done, [5624, 3, 24, 256, 16, 128, 536870912]) := by decide +kernel
/-- R167: an unknown code. -/
theorem test_unknown :
    lastReply (after (asked State.reset (rec 0xEE 0 [])) .unknownCommandRecord) =
      some (.unknownCommand, []) := by decide +kernel
/-- R4: with no converter attached the lane is refused NO_PORT (status 0x8D). -/
theorem test_start_no_port :
    lastReply (after (asked State.reset (rec 0x12 0 [8, 0])) .startLanes) =
      some (.noPort, [0x8D]) := by decide +kernel
/-- R35, R36: a block of one row of 4 columns, whose fill write is SHORT. -/
theorem test_define :
    let t := after (asked State.reset (rec 0x30 5 [8192, 1, 4])) .defineBlock
    t.block 5 = ⟨.filling, 8192, 1, 4, 0⟩ ∧ t.dir.fillQueue = [5] ∧
      t.tmc.requests = [⟨.fill, [8192, 8193, 8194, 8195], some [0, 0, 0, 0], false, 0, 0⟩] := by
  decide +kernel
/-- R35: a BASE that is no multiple of 16. -/
theorem test_define_bad_base :
    lastReply (after (asked State.reset (rec 0x30 5 [8200, 1, 4])) .defineBlock) =
      some (.badValue, []) := by decide +kernel
/-- The block of 02's worked example. -/
def withBlock : State := State.reset.setBlock 5 ⟨.ready, 8192, 100, 4, 0⟩
/-- 02, A window that wraps: five words, one wrap, pointer at (3, 1), first write of A to D. -/
theorem test_write_trace :
    let t := after (asked withBlock (rec 0x33 0 [5, 2, 3, 1, 2, 1, 1, 2, 3, 4, 5])) .writeTraceStart
    t.cmd.window = some ⟨5, 2, 3, 1, 2, .columnMajor, false, 3, 1, 1⟩ ∧
      t.tmc.requests.map Request.addresses = [[8201, 8205, 8202, 8206]] ∧
      t.tmc.requests.map Request.short = [true] := by decide +kernel
/-- R44: a count past the block's last word is cut to one word. -/
theorem test_read_trace :
    (after (asked withBlock (rec 0x34 5 [99, 3, 9])) .readTrace).cmd.unit =
      .held (.read [[8591]] [] true false) := by decide +kernel
/-- R78: two of three points fit; the reply is ADJUSTED with 2 written. -/
theorem test_load_curve :
    let t := after (asked State.reset (rec 0x20 63 [0x02000001, 2, 3])) (.loadCurve [])
    lastReply t = some (.adjusted, [2]) ∧ t.point 2 63 = ⟨1, true⟩ ∧ t.point 2 64 = ⟨2, true⟩ := by
  decide +kernel
/-- R79: a tick between the replacements of two points reads P[63] replaced and P[64] as it was: 8,388,607
under the points 1 and 1,048,575 gives 1 + 262,143 × 1,048,574 / 262,144, rounded, 1,048,571; one that reads
P[64] a replacement later, under 1 and 2, gives 2. -/
theorem test_curve_half_written :
    let s := replacePoint 2 63 1 State.reset
    curveStage s (some 2) 8388607 = .code 1048571 ∧
      curveStageOver s (replacePoints 2 64 [2] s) (some 2) 8388607 = .code 2 := by decide +kernel
/-- R18, R154: lane 3, mark, value 100. -/
theorem test_sample :
    ((after State.reset (.sample 10 (BitVec.ofNat 32 (3 * 2 ^ 26 + 2 ^ 25 + 100)))).lane 3).live =
      ⟨100, true, true⟩ := by decide +kernel
/-- R154: lane 24 does not exist. -/
theorem test_sample_bad_lane :
    (after State.reset (.sample 10 (BitVec.ofNat 32 (24 * 2 ^ 26)))).link.badLane = 1 := by decide +kernel
/-- R151: the first mark takes the link UP and is no jump. -/
theorem test_cycle_mark :
    (after State.reset (.cycleMark 10 5000 [])).link =
      ⟨.up, 5000, 1000, 10, .idle, 0, 0, 0, 0, 0⟩ := by decide +kernel
/-- R155: code 0x12, tag 9, length 2, index 3. -/
theorem test_header :
    (after State.reset (.header 0 (BitVec.ofNat 32 (0x12 * 2 ^ 24 + 9 * 2 ^ 16 + 2 * 2 ^ 10 + 3)))).cmd.queue =
      [⟨.assembling, 0x12, 9, 2, 3, [], .complete⟩] := by decide +kernel
/-- R149: counted and held in the latch. -/
theorem test_bad_word :
    let t := after State.reset (.linkWordBad 0)
    t.link.badWords = 1 ∧ t.latch.state = .held ⟨.linkWord, 0⟩ := by decide +kernel
/-- Rule 4 in lane 3, RUNNING CONSTANT on a grid of 100 µs, ACTIVE with this action. -/
def acting (a : Action) : State :=
  (lane3 fun x => { x with
    state := .running
    pacing := .timed 100000 100000
    config := { x.config with source := .constant }
    chain := [4] }).setRule 4
    { Rule.vacant with state := .active, fields := { fields with action := a, unit := .cycles } }
/-- R126: a FREEZE rule that a DISARM takes out of the chain within the tick counts APPLIED all the same,
becomes LOADED, and the hold word is handed FAULTED. -/
theorem test_freeze_disarmed :
    let s := takeWithin (sourceStage (asked (acting .freeze) (rec 0x43 4 [0])) 3).1 .disarm
    let t := freezeStage s 3 [4] []
    (t.1.rule 4).state = .loaded ∧ (t.1.rule 4).applied = 1 ∧ t.2 = ⟨32768, true, false, true⟩ ∧
      lastReply t.1 = some (.done, [1]) := by decide +kernel
/-- R113: a DISARM between the steps 2 and 3 of a tick at which the rule is attempted is not taken there. -/
theorem test_disarm_of_attempted :
    let s := asked (acting .invert) (rec 0x43 4 [0])
    ((takeLate [4] s .disarm).rule 4).state = .active ∧ ((takeLate [] s .disarm).rule 4).state = .loaded := by
  decide +kernel
/-- R95: a rule armed when its number was already reached is triggered by a mark of any number; another is
not triggered by a mark before its number. -/
theorem test_late_rule :
    let s (late : Bool) : State := (lane3 fun x => { x with state := .running }).setRule 4
      { Rule.vacant with state := .armed, fields := { fields with trigger := .atCycle 10 }, late := late }
    ((ruleTableMark (s true) 5).rule 4).state = .triggered ∧
      ((ruleTableMark (s false) 5).rule 4).state = .armed := by decide +kernel
/-- 06, One tick through every class: chain, word, line state, sequence mode, FAULTED and APPLIED. -/
theorem test_every_class :
    let rule (p : Nat) (a : Action) (level : Nat) : Rule :=
      { Rule.vacant with
        state := .active
        fields := { fields with lane := 11, priority := p, action := a, intermittency := level, unit := .cycles } }
    let s := (State.reset.modLane 11 fun x => { x with
      state := .running
      pacing := .timed 100000 100000
      config := { x.config with
        source := .constant, constantCode := 3000000, portKind := .frame, wordLength := .w12, curve := none }
      port := { x.port with transfer := some .resetRest }
      chain := [70, 71, 72, 73, 74, 75] })
    let s := (((((s.setRule 70 (rule 1 (.offset (-1000000)) 0)).setRule 71 (rule 2 (.gain 2048 0) 0)).setRule 72
      (rule 3 (.flip 0x100) 0)).setRule 73 (rule 4 (.line .shortLow) 0)).setRule 74
      (rule 5 (.line .openLine) 200)).setRule 75 (rule 6 (.seqJump 3) 0)
    let d := drawGates (fun i => (s.rule i).fields.intermittency) (s.lane 11).chain 0x1C80
    d.2 = 0x3900 ∧ (match lastSteps .whole s 11 { presented := .code 3000000 none } d.1 with
      | .endedTick _ _ => none
      | .goOn t _ => some ((t.lane 11).port.pending,
        ([70, 71, 72, 73, 74, 75] : List RuleId).map fun r => (t.rule r).applied)) =
      some (some ⟨2293, .shortLow, false, false, .jump 3⟩, [1, 1, 1, 1, 0, 1]) := by decide +kernel
/-- R147: a soft reset between a HARD error and its report leaves the lane OFF and the error held. -/
theorem test_reset_before_report :
    let t := resetThenArrive {} [.ruleCheck 3 4] (asked (acting .invert) (rec 0x03 0 []))
    t.latch.state = .held ⟨.ruleCheck 3 4, 0⟩ ∧ (t.lane 3).state = .off ∧ lastReply t = some (.done, []) := by
  decide +kernel
/-- R164: a soft reset before the second of two TAP words empties the queue of the first and keeps the
second. -/
theorem test_reset_before_tap :
    let s := asked (acting .invert) (rec 0x03 0 [])
    let t := resetThenArrive { taps := 1 } [] { s with ret := { s.ret with taps := [5, 6] } }
    t.ret.taps = [6] ∧ (t.lane 3).state = .off ∧ t.latch.state = .empty := by decide +kernel
/-- R109: a rule whose LANE a disturbance changed to 5 leaves lane 3's chain when lane 5 stops. -/
theorem test_stop_of_changed_lane :
    let s := ((acting .invert).modRule 4 fun x => { x with fields := { x.fields with lane := 5 } }).modLane 5
      fun x => { x with state := .running }
    let t := after (asked s (rec 0x13 0 [BitVec.ofNat 32 32, 0])) .stopLanesNow
    (t.rule 4).state = .armed ∧ (t.lane 3).chain = [] := by decide +kernel
/-- R38: a CONSTANT lane counts on the blocks its playlist names, once each. -/
theorem test_constant_lane_counts :
    let s := (State.reset.setBlock 5 ⟨.ready, 8192, 100, 4, 0⟩).modLane 3 fun x => { x with
      config := { x.config with source := .constant }
      playlist := [⟨entry, true⟩, ⟨entry, true⟩]
      port := { x.port with present := true } }
    ((after (asked s (rec 0x12 0 [8, 100])) .startLanes).block 5).inUse = 1 := by decide +kernel
/-- R184, R187: the first frame built after a reset carries 0. -/
theorem test_first_frame :
    (moveToTransfer 0 { LaneConfig.reset with portKind := .frame } ⟨none, none, 15, .normal, true⟩
      ⟨0x8000, .normal, false, false, .normal⟩).seqCount = 0 := by decide
/-- R13, R184: the reset's rest word is strobed at 1,800 ns. -/
theorem test_strobe :
    let t := after State.reset (.portTransferComplete 3)
    t.now = 1800 ∧ (t.lane 3).port.transfer = none := by decide +kernel
/-- R160: one word takes 16 ns; IDENTIFY's header is code 0x01, tag 7, length 7, status DONE. -/
theorem test_return_word :
    let t := after (after (asked State.reset (rec 0x01 0 [])) .identify) .returnWordSent
    t.ret.slotEnd = some 16 ∧ t.ret.replies = [] ∧
      t.ret.wire = some (makeLinkWord 2 (BitVec.ofNat 32 (7 * 2 ^ 16 + 7 * 2 ^ 10 + 1))) := by
  decide +kernel

/-! ## Witnesses: the hypotheses of the statements can be met, clause by clause -/

/-- A step is taken, from states with and without a command waiting. -/
theorem witness_StepTakesFrontCommand :
    (∃ c rest, ({ State.reset with pending := [.sample 0 0] } : State).pending = c :: rest) ∧
    State.reset.pending = [] := ⟨⟨_, _, rfl⟩, rfl⟩

/-- A state that meets the three invariants and whose step answers a next state. -/
def stepping : State := { State.reset with pending := [.header 0 0x12000800] }
theorem witness_invariants_kept :
    stepping.mem.wf = true ∧ stepping.queuesFit ∧ stepping.lanesFit ∧
      (match step stepping with | .next t => t.cmd.queue.length | _ => 0) = 1 := by decide +kernel
theorem witness_MemoryFormKeptByEveryStep :
    stepping.mem.wf = true ∧ ∃ t, step stepping = .next t := ⟨by decide +kernel, _, rfl⟩
theorem witness_QueuesKeepWithinTheirPlaces :
    stepping.queuesFit ∧ ∃ t, step stepping = .next t := ⟨by decide +kernel, _, rfl⟩
theorem witness_LanesKeepWithinTheirBounds :
    stepping.lanesFit ∧ ∃ t, step stepping = .next t := ⟨by decide +kernel, _, rfl⟩
theorem witness_OnlyWritesInFlightChangeTraceMemory :
    (∃ t, exec (.sample 0 0) State.reset = .next t) ∧ (∀ powerOn, Instr.sample 0 0 ≠ .hardReset powerOn) ∧
    ∀ g a, (State.reset.group g).access = some a → a.request.data = none := by
  refine ⟨⟨_, rfl⟩, (fun _ h => nomatch h), fun g a h => ?_⟩
  have : ∀ g : GroupId, (State.reset.group g).access = none := by decide +kernel
  rw [this g] at h
  cases h
theorem witness_ConfigLayoutRoundTrip :
    LaneConfig.reset.valid ∧
    (⟨.live, codeMin, .cycle, 65535, 64, .w20, .lsbFirst, .frame, 255, 1048575, .live, some 15, .keepPace,
      65535⟩ : LaneConfig).valid := by decide
theorem witness_RuleLayoutRoundTrip :
    fields.valid 4 ∧ (⟨23, 0, 15, 15, .freeze, .onRule 255 .ended, .cycles, 65535, 16777215, 255, 0,
      false⟩ : RuleFields).valid 4 := by
  unfold RuleFields.valid Action.valid Trigger.valid fields
  decide

/-- RESET_N low, with a converter at lane 3. -/
def held : State := State.hardReset (fun l => l = 3) ⟨[], 1⟩ 0 []
theorem witness_RisingEdgeStartsThePart :
    held.resetLow = true ∧ ∃ t, exec (.hardReset true) State.reset = .next t := ⟨rfl, _, rfl⟩
theorem witness_HardResetState :
    ∀ g x, (State.reset.group g).access = some x → x.request.data.isSome → 5 ∉ x.request.addresses := by
  intro g x h
  have : ∀ g : GroupId, (State.reset.group g).access = none := by decide +kernel
  rw [this g] at h
  cases h

/-- With RESET_N high: for every word and event from outside. -/
theorem witness_events_from_outside : State.reset.resetLow = false := rfl
theorem witness_SampleReachesItsLane :
    (0 : Word).toNat / 2 ^ 26 = (0 : LaneId).val ∧
    (BitVec.ofNat 32 (23 * 2 ^ 26 + 5) : Word).toNat / 2 ^ 26 = (23 : LaneId).val ∧
    24 ≤ (BitVec.ofNat 32 (24 * 2 ^ 26) : Word).toNat / 2 ^ 26 ∧
    24 ≤ (BitVec.ofNat 32 (63 * 2 ^ 26) : Word).toNat / 2 ^ 26 := by decide
theorem witness_SampleReachesItsLane_presented :
    let s := (State.reset.modLane 3 fun x =>
      { x with live := ⟨5, true, true⟩, config := { x.config with source := .live }, chain := [4] })
    (s.lane 3).config.source = .live ∧ ∀ r ∈ (s.lane 3).chain, (s.rule r).fields.action ≠ .freeze := by
  decide +kernel
/-- A part whose command queue holds eight records. -/
def full : State := { State.reset with cmd := { State.reset.cmd with queue := List.replicate 8 (rec 1 0 []) } }
theorem witness_HeaderTakesAPlace :
    full.resetLow = false ∧ 8 ≤ full.cmd.queue.length ∧
    ({ full with cmd := { full.cmd with queue := full.cmd.queue.tail } } : State).cmd.queue.length < 8 := by
  decide +kernel
/-- The record assembler in a given state. -/
def assembling (a : Assembler) : State := { State.reset with link := { State.reset.link with assembler := a } }
theorem witness_PayloadByAssemblerState :
    State.reset.link.assembler = .idle ∧ (assembling (.opened (0 + 2))).link.assembler = .opened (0 + 2) ∧
    (assembling (.opened 1)).link.assembler = .opened 1 ∧
    (assembling (.skipping (0 + 1))).link.assembler = .skipping (0 + 1) ∧
    ∀ a, (assembling a).resetLow = false := ⟨rfl, rfl, rfl, rfl, fun _ => rfl⟩
/-- The latch in a given state. -/
def latched (k : LatchState) : State := { State.reset with latch := ⟨k, 0, 0⟩ }
theorem witness_CycleMarkMovesTheLink :
    (MarkTaker.lane 3 {} ∈ ([.lane 3] : List MarkTaker) ∧ ({} : Within).takesNoRecord) ∧
    ((([.lane 3, .ruleTable] : List MarkTaker).map MarkTaker.taker).Nodup) ∧
    (let x := { Lane.reset true with state := .primed, startCycle := 10 };
      x.state = .primed ∧ ((10 : Word) - x.startCycle).toNat ≤ 2 ^ 31 ∧
        ((2147483658 : Word) - x.startCycle).toNat ≤ 2 ^ 31 ∧ x.config.timing = .timed ∧
        { x with config := { x.config with timing := .cycle } }.config.timing = .cycle ∧
        x.late = false ∧ 2 ^ 31 < ((9 : Word) - x.startCycle).toNat) ∧
    (let x := { Lane.reset true with state := .running, pacing := .marks 2, markCount := 3 };
      x.state ≠ .primed ∧ x.pacing = .marks 2 ∧ (x.markCount + 1) % 2 = 0 ∧
        ({ x with markCount := 4 }.markCount + 1) % 2 ≠ 0) := by decide
/-- Rule 4 in a given state with a trigger and CYCLES counts of `n`, its lane 3 RUNNING. -/
def cycles4 (state : RuleState) (trigger : Trigger) (n : Nat) : State :=
  (lane3 fun x => { x with state := .running }).setRule 4
    { Rule.vacant with
      state := state, fields := { fields with trigger := trigger, unit := .cycles }
      delayCount := n, durationCount := n }
theorem witness_CycleMarkMovesTheLink_ruleTable :
    (let u := settle (cycles4 .armed (.atCycle 10) 0);
      (u.rule 4).state = .armed ∧ laneInPlay u (u.rule 4).fields.lane = true ∧
        (u.rule 4).fields.trigger = .atCycle 10 ∧ ((10 : Word) - 10).toNat < 2 ^ 31) ∧
    (let u := settle ((cycles4 .armed (.atCycle 10) 0).modRule 4 fun r => { r with late := true });
      (u.rule 4).state = .armed ∧ laneInPlay u (u.rule 4).fields.lane = true ∧ (u.rule 4).late = true) ∧
    (let u := settle (cycles4 .triggered .immediate 1);
      (u.rule 4).fields.unit = .cycles ∧ (u.rule 4).state = .triggered ∧ 0 < (u.rule 4).delayCount) ∧
    (let u := settle (cycles4 .active .immediate 1);
      (u.rule 4).fields.unit = .cycles ∧ (u.rule 4).state = .active ∧ 0 < (u.rule 4).durationCount) := by
  decide +kernel
theorem witness_BadWordIsCountedAndReported :
    State.reset.latch.state = .empty ∧
    (latched (.held ⟨.linkWord, 0⟩)).latch.state ≠ .empty ∧
    (latched (.held ⟨.linkWord, 0⟩)).resetLow = false := by decide +kernel
theorem witness_SilenceExpiryLosesTheLink :
    ({ State.reset with link := { State.reset.link with state := .up } } : State).link.state = .up ∧
    State.reset.link.state ≠ .up := by decide +kernel

/-! ### Ticks, rules, ports -/

/-- Lane 3 RUNNING on a grid of 100 µs with this source. -/
def running (source : Source) (queue : List QueueWord) : State := lane3 fun x =>
  { x with
    state := .running
    pacing := .timed 100000 100000
    config := { x.config with source := source }
    queue := queue }
/-- Rule 4 in a given state with a trigger, its lane 3 RUNNING. -/
def rule4 (state : RuleState) (trigger : Trigger) (endDue : Bool) : State :=
  (running .constant []).setRule 4
    { Rule.vacant with state := state, fields := { fields with trigger := trigger }, endDue := endDue }
/-- The same rule in lane 3's chain. -/
def chained (s : State) : State := s.modLane 3 fun x => { x with chain := [4] }
/-- A delay that has run out. -/
abbrev delayEnds (s : State) (r : RuleId) : Prop :=
  (s.rule r).state = .triggered ∧ (s.rule r).delayCount = 0 ∧ (s.rule r).attemptDue = false
/-- Every rule of the reset state is VACANT. -/
theorem reset_rule (j : RuleId) : State.reset.rule j = Rule.vacant := by
  simp [State.rule, State.reset, State.hardReset]
theorem rule4_other (state : RuleState) (trigger : Trigger) (endDue : Bool) {j : RuleId} (h : j ≠ 4) :
    (rule4 state trigger endDue).rule j = Rule.vacant :=
  (State.rule_setRule ..).trans ((if_neg h.symm).trans (reset_rule j))
theorem acting_other (a : Action) {j : RuleId} (h : j ≠ 4) : (acting a).rule j = Rule.vacant :=
  (State.rule_setRule ..).trans ((if_neg h.symm).trans (reset_rule j))
theorem witness_SettledStateIsUnchanged (r : RuleId) :
    (State.reset.rule r).endDue = false ∧ ((State.reset.rule r).state = .triggered →
      (State.reset.rule r).delayCount = 0 → (State.reset.rule r).attemptDue = true) := by
  rw [reset_rule]
  decide
theorem witness_SettledStateIsUnchanged_delay :
    let s := rule4 .triggered .immediate false
    delayEnds s 4 ∧ (∀ j, j ≠ 4 → ¬delayEnds s j) ∧ ∀ j, j ≠ 4 → (s.rule j).endDue = false := by
  refine ⟨by decide +kernel, fun j h => ?_, fun j h => ?_⟩
  · simp [delayEnds, rule4_other _ _ _ h, Rule.vacant]
  · simp [rule4_other _ _ _ h, Rule.vacant]
theorem witness_SettledStateIsUnchanged_duration :
    let s := chained (rule4 .active .immediate true)
    (s.rule 4).state = .active ∧ (s.rule 4).endDue = true ∧
      (∀ j, ¬delayEnds (rule4 .active .immediate true) j) ∧
      (∀ j, j ≠ 4 → ((rule4 .active .immediate true).rule j).endDue = false) ∧
      (s.lane 3).chain.count 4 = 1 ∧ ∀ k, k ≠ 3 → (4 : RuleId) ∉ (s.lane k).chain := by
  refine ⟨by decide +kernel, by decide +kernel, fun j => ?_, fun j h => ?_, by decide +kernel, by decide +kernel⟩
  · by_cases h : j = 4
    · subst h
      decide +kernel
    · simp [delayEnds, rule4_other _ _ _ h, Rule.vacant]
  · simp [rule4_other _ _ _ h, Rule.vacant]
theorem witness_TimedTickKeepsItsGrid :
    ({} : Within).reset = none ∧ ({} : Within).takesNoRecord ∧
    ((running .constant []).lane 3).pacing = .timed 100000 100000 ∧
    ((running .constant []).lane 3).takesTicks = true := by decide +kernel
theorem witness_TimedTickKeepsItsGrid_steps :
    (let u := settle (running .replay []);
      (u.lane 3).state = .running ∧ (u.lane 3).config.source ≠ .live) ∧
    (sourceStage (running .replay []) 3).2.presented = .underrun ∧
    (∃ v, step2 (running .replay []) 3 .underrun = .goOn v []) ∧
    (∃ w gates, step3 (running .replay []) 3 = .goOn w gates) ∧
    (∃ z, lastSteps .whole (running .replay []) 3 { presented := .underrun } [] = .goOn z ()) ∧
    ∃ w, step3 ((acting .invert).modRule 4 fun x => { x with codeOk := false }) 3 =
      .endedTick w (.ruleCheck 3 4) :=
  ⟨by decide +kernel, by decide +kernel, ⟨_, rfl⟩, ⟨_, _, rfl⟩, ⟨_, rfl⟩, ⟨_, rfl⟩⟩
/-- The word of VALUE 5 with its check bits, second of its pass. -/
def goodWord : QueueWord := ⟨sealTraceWord false 5, ⟨8233, ⟨0, 1, 10⟩, false, false⟩⟩
theorem witness_QuietTickConvertsItsCode :
    (∀ r, ((running .replay [goodWord]).rule r).state ≠ .armed ∧
      ((running .replay [goodWord]).rule r).state ≠ .triggered ∧
      ((running .replay [goodWord]).rule r).endDue = false) ∧
    ((running .constant []).lane 3).config.constantCode = 0 ∧
    curveStage (running .constant []) none 0 = .code 524288 ∧
    ((running .live []).link.state ≠ .lost ∧ ((running .live []).lane 3).live.value = 0 ∧
      ((running .live []).lane 3).chain = []) ∧
    (((running .replay [goodWord]).lane 3).queue = goodWord :: [] ∧
      ((running .replay [goodWord]).lane 3).debt = 0 ∧ traceWordFails goodWord.word = false ∧
      goodWord.word.getLsbD 25 = false ∧ (goodWord.word.setWidth 24).toInt = 5 ∧
      curveStage (running .replay [goodWord]) none 5 = .code 524288 ∧
      lastWordOfPlaylist ((running .replay [goodWord]).lane 3) goodWord.place = false) := by decide +kernel
/-- The word of VALUE 5 with HOLD set, and one whose check bits fail, each the last of its playlist. -/
def holdWord : QueueWord := ⟨sealTraceWord false (2 ^ 25 + 5), ⟨8233, ⟨0, 1, 10⟩, true, true⟩⟩
def failingWord : QueueWord := ⟨sealTraceWord true 5, ⟨8233, ⟨0, 1, 10⟩, true, true⟩⟩
theorem witness_QuietTickConvertsItsCode_replay :
    (let s := (running .replay [goodWord, holdWord, goodWord]).modLane 3 fun x => { x with debt := 1 };
      let x := s.lane 3;
      x.queue.drop (min x.debt (x.queue.length - 1)) = holdWord :: [goodWord] ∧
        holdWord.word.getLsbD 25 = true ∧ (x.prev.getD 0) = 0 ∧
        curveStage s x.config.curve 0 = .code 524288) ∧
    (let s := running .replay [failingWord];
      let x := s.lane 3;
      x.queue.drop (min x.debt (x.queue.length - 1)) = failingWord :: [] ∧
        traceWordFails failingWord.word = true) := by decide +kernel
/-- Lane 3's rule 4, with this action and intermittency, alone in its chain and counting in TICKS. -/
def actingTicks (a : Action) (level : Nat) (codeOk : Bool) : State :=
  (acting a).setRule 4
    { Rule.vacant with
      state := .active, codeOk := codeOk, durationCount := 1
      fields := { fields with action := a, intermittency := level } }
theorem witness_QuietTickConvertsItsCode_rule :
    ∀ s ∈ [actingTicks (.offset 5) 0 true, actingTicks (.delay 1) 255 true],
      (s.lane 3).pacing = .timed 100000 100000 ∧ (s.lane 3).state = .running ∧
      (s.lane 3).config.source = .constant ∧ (s.lane 3).chain = [4] ∧ (s.rule 4).state = .active ∧
      (s.rule 4).codeOk = true ∧ (s.rule 4).fields.action ≠ .freeze ∧
      (∀ j, (s.rule j).state ≠ .armed ∧ (s.rule j).state ≠ .triggered ∧ (s.rule j).endDue = false) ∧
      curveStage s (s.lane 3).config.curve 5 = .code 524288 ∧
      curveStage s (s.lane 3).config.curve 0 = .code 524288 := by decide +kernel
theorem witness_QuietTickConvertsItsCode_failing :
    (let s := ((acting .invert).modLane 3 fun x => { x with
        chain := [], config := { x.config with curve := some 2 } }).setPoint 2 32 ⟨0, false⟩;
      (s.lane 3).chain = [] ∧
        curveStage s (s.lane 3).config.curve (s.lane 3).config.constantCode = .fails 2 32) ∧
    (let s := actingTicks .invert 0 false;
      (s.lane 3).chain = [4] ∧ (s.rule 4).fields.action ≠ .freeze ∧ (s.rule 4).codeOk = false ∧
        ∀ k, k ≠ 3 → (4 : RuleId) ∉ (s.lane k).chain) := by decide +kernel
/-- The same part with its link LOST. -/
def lost (s : State) : State := { s with link := { s.link with state := .lost } }
theorem witness_FallbackTicksHandTheirWord :
    ((lost (running .live [])).link.state = .lost ∧
      ((lost (running .live [])).lane 3).state = .running ∧
      ((lost (running .live [])).lane 3).config.source = .live) ∧
    (((running .replay []).lane 3).queue = [] ∧ ((running .replay []).lane 3).config.source = .replay ∧
      ∀ r, ((running .replay []).rule r).endDue = false ∧
        ((running .replay []).rule r).state ≠ .triggered) := by decide +kernel
/-- Lane 3 HALTED with FALLBACK LIVE. -/
def haltedLive : State := (running .constant []).modLane 3 fun x =>
  { x with state := .halted, config := { x.config with fallback := .live } }
theorem witness_FallbackTicksHandTheirWord_halted :
    (haltedLive.lane 3).pacing = .timed 100000 100000 ∧ (haltedLive.lane 3).state = .halted ∧
    (haltedLive.lane 3).config.fallback = .live ∧ haltedLive.link.state ≠ .lost ∧
    (lost haltedLive).link.state = .lost ∧ curveStage haltedLive none 0 = .code 524288 ∧
    (let s := haltedLive.setPoint 2 32 ⟨0, false⟩;
      curveStage s (some 2) (s.lane 3).live.value = .fails 2 32) := by decide +kernel
theorem witness_FallbackTicksHandTheirWord_freeze :
    let s := actingTicks .freeze 0 true
    (∀ r, (s.rule r).endDue = false ∧ (s.rule r).state ≠ .triggered) ∧ (s.lane 3).state = .running ∧
    (s.lane 3).config.source ≠ .live ∧ (s.lane 3).chain = [4] ∧ (s.rule 4).state = .active ∧
    (s.rule 4).fields.action = .freeze ∧ (s.rule 4).codeOk = true ∧
    (s.rule 4).fields.intermittency = 0 := by decide +kernel
theorem witness_FallbackTicksHandTheirWord_freeze_failing :
    let s := ((actingTicks .freeze 0 true).setRule 5
      { Rule.vacant with state := .active, codeOk := false, fields := fields }).modLane 3 fun x =>
        { x with chain := [4, 5] }
    (s.lane 3).pacing = .timed 100000 100000 ∧ (s.lane 3).state = .running ∧
    (s.lane 3).config.source ≠ .live ∧ (s.lane 3).chain = [4, 5] ∧ (s.rule 4).fields.action = .freeze ∧
    (s.rule 4).codeOk = true ∧ (s.rule 5).fields.action ≠ .freeze ∧ (s.rule 5).codeOk = false ∧
    (∀ k, k ≠ 3 → (5 : RuleId) ∉ (s.lane k).chain) ∧
    ∀ i, (s.rule i).endDue = false ∧ (s.rule i).state ≠ .triggered := by decide +kernel
/-- Lane 3 under FREEZE, its CYCLES activation run out and not to be repeated. -/
def freezeEnds : State := (acting .freeze).modRule 4 fun x =>
  { x with endDue := true, remaining := .count 1, fields := { x.fields with trigger := .onCommand 3 } }
theorem witness_FallbackTicksHandTheirWord_within :
    (∀ s ∈ [freezeEnds, asked (acting .freeze) (rec 0x43 4 [0])],
      (s.lane 3).pacing = .timed 100000 100000 ∧ (s.lane 3).state = .running ∧ (s.lane 3).chain = [4] ∧
      (s.rule 4).fields.action = .freeze ∧ (s.rule 4).state = .active) ∧
    (freezeEnds.rule 4).endDue = true ∧ (freezeEnds.rule 4).fields.unit = .cycles ∧
    ((takeWithin freezeEnds (.ruleEnd 4)).lane 3).chain = [] ∧
    ((takeWithin (asked (acting .freeze) (rec 0x43 4 [0])) .disarm).lane 3).chain = [] ∧
    ((takeWithin freezeEnds (.ruleEnd 4)).rule 4).state = .spent ∧
    Headed (asked (acting .freeze) (rec 0x43 4 [0])) (rec 0x43 4 [0]) [] ∧
    CarriedOut .disarm (rec 0x43 4 [0]) := by decide +kernel
theorem witness_FallbackTicksHandTheirWord_within_others {j : RuleId} (h : j ≠ 4) :
    ((asked (acting .freeze) (rec 0x43 4 [0])).rule j).state = .vacant ∧ (freezeEnds.rule j).state = .vacant :=
  ⟨congrArg Rule.state (acting_other .freeze h), congrArg Rule.state
    ((State.rule_setRule ..).trans ((if_neg h.symm).trans (acting_other .freeze h)))⟩
theorem witness_FallbackTicksHandTheirWord_within_settled :
    unsettled (asked (acting .freeze) (rec 0x43 4 [0])) = false := by decide +kernel
/-- A state with no end due is settled. -/
theorem settled (s : State) (h : unsettled s = false) : settle s = s := by
  unfold settle
  rw [h]
  rfl
theorem witness_FallbackTicksHandTheirWord_endOfPlay :
    (let s := (running .replay [holdWord]).modLane 3 fun x => { x with state := .draining };
      (s.lane 3).state = .draining ∧ (s.lane 3).chain = [] ∧ holdWord.place.endOfPass = true ∧
      (∀ r, (s.rule r).state ≠ .armed ∧ (s.rule r).state ≠ .triggered ∧ (s.rule r).endDue = false ∧
          ((s.rule r).fields.lane = (3 : LaneId).val → (s.rule r).state ≠ .active))) ∧
    (let s := (running .replay [failingWord]).modLane 3 fun x => { x with playlist := [⟨entry, true⟩] };
      lastWordOfPlaylist (s.lane 3) failingWord.place = true) := by decide +kernel
/-- A word that waits at a port. -/
def waitingWord : PortWord := ⟨5, .normal, false, false, .normal⟩
/-- Lane 3's port in a given state, of this kind. -/
def port3 (kind : PortKind) (transfer : Option Transfer) (pending : Option PortWord) : State := lane3 fun x =>
  { x with
    config := { x.config with portKind := kind }
    port := { x.port with transfer := transfer, pending := pending } }
theorem witness_HandOverTakesThePort :
    ((port3 .level none none).lane 3).port.transfer = none ∧
    (((port3 .level (some .resetRest) none).lane 3).port.transfer ≠ none ∧
      ((port3 .level (some .resetRest) none).lane 3).port.pending = none) ∧
    (((port3 .level (some .resetRest) (some waitingWord)).lane 3).port.transfer ≠ none ∧
      ((port3 .level (some .resetRest) (some waitingWord)).lane 3).port.pending ≠ none) := by decide +kernel
theorem witness_StrobeMovesThePort :
    (State.reset.lane 3).port.transfer = some .resetRest ∧ (State.reset.lane 3).port.pending = none ∧
    (((port3 .level (some .resetRest) (some waitingWord)).lane 3).port.pending = some waitingWord ∧
      ((port3 .level (some .resetRest) (some waitingWord)).lane 3).config.portKind = .level) ∧
    ((port3 .frame (some .resetRest) (some waitingWord)).lane 3).config.portKind = .frame := by decide +kernel
theorem witness_RuleEndsTakeTheirTime :
    (((rule4 .triggered .immediate false).rule 4).state = .triggered ∧
      ((rule4 .triggered .immediate false).rule 4).delayCount = 0 ∧
      ((rule4 .triggered .immediate false).rule 4).attemptDue = false) ∧
    (((rule4 .active .immediate true).rule 4).state = .active ∧
      ((rule4 .active .immediate true).rule 4).endDue = true ∧
      laneInPlay (rule4 .active .immediate true) fields.lane = true) ∧
    (((rule4 .armed (.onRule 9 .ended) false).rule 4).state = .armed ∧
      ((rule4 .armed (.onRule 9 .ended) false).rule 4).fields.trigger = .onRule 9 .ended) := by decide +kernel
theorem witness_RuleEndsTakeTheirTime_step3 :
    (let s := actingTicks .invert 0 false;
      (s.lane 3).chain = [] ++ 4 :: [] ∧ (s.rule 4).codeOk = false) ∧
    (let s := actingTicks .invert 200 true;
      (∀ i ∈ (s.lane 3).chain, (s.rule i).codeOk = true) ∧ (s.lane 3).chain[0]? = some 4 ∧
      (s.rule 4).fields.unit = .ticks ∧ (s.rule 4).state = .active ∧ 0 < (s.rule 4).durationCount) ∧
    (let s := (rule4 .triggered .immediate false).modRule 4 fun x => { x with delayCount := 1, baseSeen := true };
      (s.rule 4).fields.unit = .ticks ∧ (s.rule 4).state = .triggered ∧ (s.rule 4).fields.lane = (3 : LaneId).val ∧
        (s.rule 4).baseSeen = true ∧ 0 < (s.rule 4).delayCount) := by decide +kernel
theorem witness_AttemptsJoinTheChain :
    attemptSucceeds (rule4 .triggered .immediate false) 3 4 = true ∧
    ((rule4 .triggered .immediate false).lane 3).chain = [] ++ [] ∧
    (((rule4 .armed (.onRule 9 .active) false).rule 4).fields.trigger = .onRule 9 .active ∧
      laneInPlay (rule4 .armed (.onRule 9 .active) false) fields.lane = true) := by decide +kernel
/-- Rule 4 TRIGGERED and due in lane 3, whose chain holds eight rules or none. -/
def due4 (fullChain codeOk : Bool) : State :=
  ((rule4 .triggered .immediate false).modRule 4 fun x =>
    { x with attemptDue := true, codeOk := codeOk }).modLane 3 fun x =>
      { x with chain := if fullChain then List.replicate 8 9 else [] }
theorem witness_AttemptsJoinTheChain_due :
    ((due4 false false).rule 4).codeOk = false ∧
    (((due4 false true).rule 4).codeOk = true ∧ attemptSucceeds (due4 false true) 3 4 = true) ∧
    (((due4 true true).rule 4).codeOk = true ∧ attemptSucceeds (due4 true true) 3 4 = false) ∧
    (let s := rule4 .armed (.onMark (some 2)) false;
      (s.rule 4).state = .armed ∧ laneInPlay s (s.rule 4).fields.lane = true ∧
        (s.rule 4).fields.watch = (3 : LaneId).val ∧ (s.rule 4).fields.trigger = .onMark (some 2)) := by
  decide +kernel

/-! ### Trace memory -/

/-- Lane 3 PRIMED on the playlist of 02's worked example. -/
def primed (codeOk : Bool) : State := withBlock.modLane 3 fun x =>
  { x with
    state := .primed
    config := { x.config with source := .replay }
    playlist := [⟨entry, codeOk⟩]
    fetchPos := .at ⟨0, 1, 10⟩ }
/-- 02: the first fetch F1 concerns 8,233 and 8,237. -/
theorem witness_FetchIssueReservesItsWords :
    (let x := (settle (primed true)).lane 3;
      x.state.inPlay = true ∧ x.fetch = none ∧ x.entryLead < 2 ∧ x.fetchPos = .at ⟨0, 1, 10⟩ ∧
      x.playlist[0]? = some ⟨entry, true⟩ ∧ entryPasses (settle (primed true)) ⟨entry, true⟩ = true ∧
      (nextYield ((settle (primed true)).block 5) entry ⟨0, 1, 10⟩).map FetchWord.address = [8233, 8237] ∧
      0 < x.freePlaces) ∧
    ((primed false).lane 3).playlist[0]? = some ⟨entry, false⟩ ∧
    entryPasses (settle (primed false)) ⟨entry, false⟩ = false := by decide +kernel
/-- A block of 16 columns, and an entry along it in both directions. -/
theorem witness_FetchIssueReservesItsWords_clauses :
    (1 ≤ (⟨.ready, 8192, 100, 4, 0⟩ : Block).columns ∧ 1 ≤ entry.step) ∧
    (nextYield ⟨.ready, 8192, 100, 4, 0⟩ entry ⟨0, 1, 20⟩)[0]? = some ⟨8273, ⟨0, 1, 20⟩, true, true⟩ ∧
    (nextYield ⟨.ready, 8192, 100, 4, 0⟩ { entry with direction := .reverse } ⟨0, 1, 11⟩).map FetchWord.address =
      [8237, 8233] ∧
    (¬entry.lastRow < 10 + entry.step ∧ entry.lastRow < 20 + entry.step) ∧
    (({ entry with passes := 0 } : PlaylistEntry).passes = 0 ∧ entry.passes ≠ 0 ∧ (1 : Nat) = entry.passes) ∧
    ((⟨8273, ⟨0, 1, 20⟩, true, true⟩ : FetchWord).endOfPass = true) := by decide
theorem witness_FetchIssueReservesItsWords_fails :
    (settle (primed false)).lanes[3].state.inPlay = true ∧ (settle (primed false)).lanes[3].fetch = none ∧
    (settle (primed false)).lanes[3].entryLead < 2 ∧
    (settle (primed false)).lanes[3].fetchPos = .at ⟨0, 1, 10⟩ ∧
    0 < (settle (primed false)).lanes[3].freePlaces := by decide +kernel
/-- A request of the Command Unit for one word of memory row 1 of bank 0 of group 0. -/
def request : Request := ⟨.command, [8201], none, false, 0, 0⟩
/-- That request pending, with this row open in bank 0 of group 0. -/
def pendingRead (row : Option Nat) : State :=
  let s := { State.reset with tmc := { State.reset.tmc with requests := [request] } }
  s.setGroup 0 { s.group 0 with openRows := (s.group 0).openRows.set 0 row }
theorem witness_ArbiterGrantsTheFirst :
    (∃ q ∈ (pendingRead none).tmc.requests, eligible (pendingRead none) q = true) ∧
    groupOf request.first = 0 ∧ bankOf request.first = 0 ∧ rowOf request.first = 1 ∧
    ((pendingRead none).group 0).openRows[0] = none ∧
    ((pendingRead (some 1)).group 0).openRows[0] = some (rowOf request.first) ∧
    (((pendingRead (some 2)).group 0).openRows[0] = some 2 ∧ 2 ≠ rowOf request.first) := by decide +kernel
/-- An access in flight for this requester, of these addresses and data. -/
def access (who : Requester) (addresses : List Nat) (data : Option (List Word)) : Access :=
  ⟨⟨who, addresses, data, false, 0, 0⟩, .hit, 40⟩
/-- That access in flight in group 0. -/
def flying (s : State) (a : Access) : State := s.setGroup 0 { s.group 0 with access := some a }
theorem only_flying (s : State) (a : Access) (who : Requester)
    (h : ∀ k : GroupId, k ≠ 0 → (s.group k).access = none) (k : GroupId) (b : Access)
    (hb : ((flying s a).group k).access = some b) (_ : b.request.requester = who) : k = 0 := by
  by_cases hk : k = 0
  · exact hk
  · have hv : (0 : Nat) ≠ k.val := fun e => hk (Fin.ext e.symm)
    have : ((flying s a).group k).access = (s.group k).access := by
      simp only [flying, State.group, State.setGroup]
      rw [Vector.getElem_set_ne _ _ (by exact hv)]
    rw [this, h k hk] at hb
    cases hb
theorem reset_groups_idle : ∀ k : GroupId, k ≠ 0 → (State.reset.group k).access = none := by decide +kernel
theorem witness_AccessLeavesItsRow :
    (access .command [8201] none).request.data = none ∧
    (access .command [8201, 8205] (some [1, 2])).request.data = some [1, 2] ∧
    (access .command [8201, 8205] (some [1, 2])).request.addresses.Nodup ∧
    (access .command [8201, 8205] (some [1, 2])).request.addresses.length = [(1 : Word), 2].length := by decide
/-- Lane 3 with a fetch in flight, voided or not. -/
def fetching (voided : Bool) : State := flying (lane3 fun x =>
  { x with state := .primed, fetch := some ⟨[⟨8233, ⟨0, 1, 10⟩, false, false⟩], voided⟩ })
  (access (.lane 3) [8233] none)
theorem witness_FetchCompletesOnce :
    (∀ v, ((fetching v).group 0).access = some (access (.lane 3) [8233] none)) ∧
    (∀ v, ((fetching v).lane 3).fetch = some ⟨[⟨8233, ⟨0, 1, 10⟩, false, false⟩], v⟩) ∧
    ∀ v k b, ((fetching v).group k).access = some b → b.request.requester = .lane 3 → k = 0 := by
  refine ⟨by decide +kernel, by decide +kernel, fun v k b => ?_⟩
  refine only_flying _ _ _ ?_ k b
  revert v
  decide +kernel
/-- A block of `rows` rows of 16 columns being filled, its first write in flight. -/
def filling (rows : Nat) (request : FillRequest) : State := flying
  { State.reset.setBlock 5 ⟨.filling, 8192, rows, 16, 0⟩ with
    dir := { (State.reset.setBlock 5 ⟨.filling, 8192, rows, 16, 0⟩).dir with
      fillQueue := [5], fillReq := request } }
  (access .fill [8192] (some [0]))
theorem witness_FillWriteCountsAGroup :
    (filling 1 .writing).dir.fillReq ≠ .discarding ∧ (filling 1 .discarding).dir.fillReq = .discarding ∧
    (filling 1 .writing).dir.fillQueue = 5 :: [] ∧
    (((filling 1 .writing).block 5).rows * ((filling 1 .writing).block 5).columns + 15) / 16 ≤
      (filling 1 .writing).dir.fillDone + 1 ∧
    (filling 2 .writing).dir.fillDone + 1 <
      (((filling 2 .writing).block 5).rows * ((filling 2 .writing).block 5).columns + 15) / 16 ∧
    ((filling 1 .writing).group 0).access = some (access .fill [8192] (some [0])) ∧
    (∀ k : GroupId, k ≠ 0 → ((filling 1 .writing).group k).access = none) := by decide +kernel
/-- The unit HELD on this work, its record at the head of the queue, its access in flight. -/
def working (job : Job) (a : Access) : State := flying
  { withBlock with cmd :=
    ⟨[{ rec 0x33 0 [] with state := .inHand }], .held job,
      some ⟨5, 2, 3, 1, 2, .columnMajor, false, 3, 1, 0⟩⟩ } a
/-- A DONE reply. -/
def doneReply : Reply := ⟨.done, 7, 0x33, []⟩
theorem witness_TraceWriteGoesOn :
    (∀ later ∈ [[], [[(8201, (5 : Word))]]],
      (working (.write ([(8201, 1)] :: later) doneReply) (access .command [8201] (some [1]))).cmd.unit =
        .held (.write ([(8201, 1)] :: later) doneReply)) ∧
    (working (.write [[(8201, 1)]] doneReply) (access .command [8201] (some [1]))).cmd.window =
      some ⟨5, 2, 3, 1, 2, .columnMajor, false, 3, 1, 0⟩ ∧
    ((working (.write [[(8201, 1)]] doneReply) (access .command [8201] (some [1]))).group 0).access =
      some (access .command [8201] (some [1])) ∧
    goes (working (.write [[(8201, 1)]] doneReply) (access .command [8201] (some [1]))) .traceWriteComplete =
      true := by decide +kernel
theorem witness_TraceReadGoesOn :
    (∀ later ∈ [[], [[8208]]],
      (working (.read ([8201] :: later) [] false false) (access .command [8201] none)).cmd.unit =
        .held (.read ([8201] :: later) [] false false)) ∧
    ((working (.read [[8201]] [] false false) (access .command [8201] none)).group 0).access =
      some (access .command [8201] none) ∧
    (∀ k : GroupId, k ≠ 0 →
      ((working (.read [[8201]] [] false false) (access .command [8201] none)).group k).access = none) := by
  decide +kernel
/-- A lane with this queue and a fetch in flight of one word, which ends its pass or not. -/
def queued (queue : List QueueWord) (ends : Bool) : Lane :=
  { (Lane.reset true) with
    state := .running
    queue := queue
    fetch := some ⟨[⟨8237, ⟨0, 1, 11⟩, ends, false⟩], false⟩ }
/-- A word that ends its pass. -/
def lastOfItsPass : QueueWord := { goodWord with place := { goodWord.place with endOfPass := true } }
theorem witness_ReplayQueueIsCut :
    ((queued [goodWord] false).queue = [] ++ goodWord :: [] ∧ goodWord.place.address ∈ [8233]) ∧
    ((∀ q ∈ (queued [goodWord] false).queue, q.place.address ∉ [8237]) ∧
      (queued [goodWord] false).liveFetchWords = ⟨8237, ⟨0, 1, 11⟩, false, false⟩ :: [] ∧
      (∀ w ∈ (queued [goodWord] false).liveFetchWords, w.address ∉ [9000])) ∧
    ((queued [goodWord, lastOfItsPass] false).queue = [goodWord] ++ lastOfItsPass :: [] ∧
      lastOfItsPass.place.endOfPass = true ∧ ∀ w ∈ [goodWord], w.place.endOfPass = false) ∧
    (∃ w ∈ (queued [goodWord] true).liveFetchWords, w.endOfPass = true) ∧
    (∀ w ∈ (queued [goodWord] false).liveFetchWords, w.endOfPass = false) := by decide +kernel
/-- Bank group 0 in a given state. -/
def group0 (x : BankGroup) : State := State.reset.setGroup 0 x
theorem witness_RefreshKeepsItsSchedule :
    ((group0 { BankGroup.reset with busyUntil := some 15 }).group 0).busyUntil = some 15 ∧
    State.reset.resetLow = false ∧
    ((State.reset.group 0).access = none ∧ (State.reset.group 0).busyUntil = none ∧
      (State.reset.group 0).refreshUntil = none) ∧
    ((group0 { BankGroup.reset with busyUntil := some 15 }).group 0).busyUntil ≠ none ∧
    (((group0 { BankGroup.reset with refreshWaiting := true }).group 0).refreshWaiting = true ∧
      ((group0 { BankGroup.reset with refreshWaiting := true }).group 0).access = none) ∧
    ((group0 { BankGroup.reset with refreshUntil := some 260 }).group 0).refreshUntil = some 260 := by
  decide +kernel

/-! ### Return direction, Command Unit -/

/-- The Return Sender with these queues, this record in transfer, and a word on the wire. -/
def sending (replies : List Reply) (notices : List Notice) (taps : List Word)
    (inTransfer : Option (List Word)) : State :=
  { State.reset with ret := { State.reset.ret with
    replies := replies, notices := notices, taps := taps, inTransfer := inTransfer, slotEnd := some 16 } }
theorem witness_ReturnSenderChooses_offers :
    State.reset.ret.mask.getLsbD 3 = true ∧ State.reset.ret.notices.length < 16 ∧
    16 ≤ (sending [] (List.replicate 16 ⟨.linkLost, []⟩) [] none).ret.notices.length ∧
    ({ State.reset.ret with mask := 0 }).mask.getLsbD 3 = false := by decide +kernel
theorem witness_ReturnSenderChooses :
    (∃ t, (sending [] [] [] (some [5])).ret.slotEnd = some t) ∧
    (sending [] [] [] (some [5])).ret.inTransfer = some (5 :: []) ∧
    (let v := (settle (sending [doneReply] [] [] none)).reach 16;
      (sending [doneReply] [] [] none).ret.inTransfer = none ∧ v.ret.replies = doneReply :: []) ∧
    (let v := (settle (sending [] [⟨.linkLost, []⟩] [] none)).reach 16;
      v.ret.replies = [] ∧ v.ret.notices = ⟨.linkLost, []⟩ :: []) ∧
    (let v := (settle (sending [] [] [3] none)).reach 16;
      v.ret.replies = [] ∧ v.ret.notices = [] ∧ v.ret.taps = 3 :: []) ∧
    (let v := (settle (sending [] [] [] none)).reach 16;
      v.ret.replies = [] ∧ v.ret.notices = [] ∧ v.ret.taps = []) ∧
    (let s := { sending [doneReply] [] [] none with
        ret := { (sending [doneReply] [] [] none).ret with slotEnd := none } };
      s.ret.slotEnd = none ∧ (settle s).ret.replies ≠ []) := by
  refine ⟨⟨16, rfl⟩, ?_⟩
  decide +kernel
/-- The unit BLOCKED on a reply, `n` replies queued. -/
def blockedOn (n : Nat) : State :=
  { State.reset with
    ret := { State.reset.ret with replies := List.replicate n doneReply }
    cmd := ⟨[{ rec 1 0 [] with state := .answered }], .blocked doneReply, none⟩ }
theorem witness_BlockedReplyIsPlaced :
    (blockedOn 15).cmd.unit = .blocked doneReply ∧
    (blockedOn 15).cmd.queue = { rec 1 0 [] with state := .answered } :: [] ∧
    (blockedOn 15).ret.replies.length < 16 ∧ 16 ≤ (blockedOn 16).ret.replies.length := by decide +kernel
theorem witness_RefusedRecordsChangeNothing :
    (∀ p ∈ [{ rec 0x02 0 [] with mark := .corrupt }, { rec 0x02 0 [] with mark := .truncated },
        rec 0x02 0 [1]],
      Headed (asked State.reset p) p [] ∧ managementRow .status = some .status ∧
        commandOf p.code = some .status) ∧
    (rec 0x02 0 [1]).mark = .complete ∧
    ¬(Command.status.lengths.1 ≤ (rec 0x02 0 [1]).payload.length ∧
      (rec 0x02 0 [1]).payload.length ≤ Command.status.lengths.2) ∧
    (∀ p ∈ [{ rec 0xEE 0 [] with mark := .corrupt }, { rec 0xEE 0 [] with mark := .truncated },
        rec 0xEE 0 []], Headed (asked State.reset p) p [] ∧ commandOf p.code = none) := by decide +kernel
/-- The record stands at the head in this state and is one of command `c`. -/
abbrev Stands (s : State) (c : Command) (p : Place) : Prop := Headed (asked s p) p [] ∧ CarriedOut c p
theorem witness_IdentifyReturnsSevenWords : Stands State.reset .identify (rec 0x01 0 []) := by decide +kernel
theorem witness_StatusReturnsThePart : Stands State.reset .status (rec 0x02 0 []) := by decide +kernel
theorem witness_ReadsReturnTheirState_lane :
    Stands State.reset .readLane (rec 0x15 0 []) ∧ Stands State.reset .readLane (rec 0x15 23 []) ∧
    Stands State.reset .readLane (rec 0x15 24 []) := by decide +kernel
theorem witness_ReadsReturnTheirState_rule :
    Stands State.reset .readRule (rec 0x45 4 []) ∧ Stands State.reset .readRule (rec 0x45 256 []) ∧
    (rule4 .active .immediate false).rules[4].state = .active ∧
    (rule4 .active .immediate false).rules[4].fields.lane = 3 ∧
    Stands (rule4 .active .immediate false) .readRule (rec 0x45 4 []) := by decide +kernel
theorem witness_ReadsReturnTheirState_directory :
    Stands State.reset .readDirectory (rec 0x32 127 [0]) ∧
    Stands State.reset .readDirectory (rec 0x32 127 [1]) ∧
    Stands State.reset .readDirectory (rec 0x32 127 [17]) ∧
    Stands State.reset .readDirectory (rec 0x32 128 [1]) := by decide +kernel
theorem witness_LatchIsReadAndCleared :
    Stands (latched (.held ⟨.ruleCheck 3 4, 5⟩)) .readLatch (rec 0x50 0 []) ∧
    Stands (latched (.heldNested ⟨.curveCheck 23 15 64, 5⟩)) .clearLatch (rec 0x51 0 []) ∧
    Stands State.reset .clearLatch (rec 0x51 0 []) := by decide +kernel
/-- The link UP, its latest mark 100 µs ago. -/
def linkUp : State := { State.reset with now := 100000, link := { State.reset.link with state := .up } }
theorem witness_ReportingIsReplaced :
    Stands State.reset .setReporting (rec 0x04 0 [10, 127, BitVec.ofNat 32 (5 * 2 ^ 20)]) ∧
    Stands State.reset .setReporting (rec 0x04 0 [10, 127, BitVec.ofNat 32 (24 + 2 ^ 20)]) ∧
    Stands linkUp .setReporting (rec 0x04 0 [100, 127, BitVec.ofNat 32 (3 + 3 * 32 + 2 * 2 ^ 20)]) ∧
    ([3, 3] : List Nat) = ([3, 3] : List LaneId).map Fin.val ∧
    (linkUp.link.state = .up ∧ 100 * 1000 ≤ linkUp.now - linkUp.link.lastMark) ∧
    ¬(linkUp.link.state = .up ∧ 101 * 1000 ≤ linkUp.now - linkUp.link.lastMark) := by decide +kernel
theorem witness_SoftResetKeepsItsTables : Stands State.reset .reset (rec 0x03 0 []) := by decide +kernel
theorem witness_SoftResetKeepsItsTables_report :
    Stands (primed false) .reset (rec 0x03 0 []) ∧
    (settle (primed false)).lanes[3].playlist[0]? = some ⟨entry, false⟩ ∧
    entryPasses (settle (primed false)) ⟨entry, false⟩ = false := by decide +kernel

/-- An activation that has run out, and a LIVE lane's tick while the link is LOST, with a RESET waiting. -/
theorem witness_SoftResetKeepsItsTables_arrive :
    (let s := asked (chained (rule4 .active .immediate true)) (rec 0x03 0 []);
      Headed s (rec 0x03 0 []) [] ∧ CarriedOut .reset (rec 0x03 0 []) ∧ (s.rule 4).state = .active ∧
        (s.rule 4).endDue = true) ∧
    (let s := asked (lost (running .live [])) (rec 0x03 0 []);
      Headed s (rec 0x03 0 []) [] ∧ (s.lane 3).pacing = .timed 100000 100000 ∧
        (laneTick .whole ((s.reach 100000).modLane 3 fun x =>
          { x with pacing := .timed 200000 100000 }) 3).2 = []) := by decide +kernel

/-! ### Lanes, playlists, curves -/

theorem witness_ConfigurationIsTakenInRange :
    Stands State.reset .configLane (rec 0x10 24 [0, 0, 0, 0]) ∧
    Stands (running .constant []) .configLane (rec 0x10 3 [0, 0, 0, 0]) ∧
    ((settle (running .constant [])).lane 3).state ≠ .off ∧
    ((settle State.reset).lane 3).state = .off ∧
    decodeConfig [0, 0, 0, 0] = none ∧
    (decodeConfig (encodeConfig { LaneConfig.reset with divisor := 10 })).map Prod.snd = some true ∧
    decodeConfig (encodeConfig .reset) = some (.reset, false) := by decide +kernel
/-- The payload of one entry: block 5, column 1, rows 10 to 20, FORWARD, STEP 1, PASSES 1, END STOP. -/
def entryPayload (lastRow : Nat) : List Word :=
  [BitVec.ofNat 32 10, BitVec.ofNat 32 (lastRow + 2 ^ 29), BitVec.ofNat 32 (1 + 5 * 2 ^ 16 + 2 ^ 23 + 17 * 2 ^ 27)]
theorem witness_PlaylistIsReplacedWhole_layout :
    ∀ e ∈ [entry, { entry with
        column := 15, firstRow := 536870911, lastRow := 536870911, direction := .reverse, step := 16
        passes := 65535, ending := .loop 0 }],
      e.column < 16 ∧ e.firstRow ≤ e.lastRow ∧ e.lastRow < 2 ^ 29 ∧ 1 ≤ e.step ∧ e.step ≤ 16 ∧
      e.passes < 65536 ∧ (e.ending = .stop ∨ (e.ending = .loop 0 ∧ 0 < 1)) := by decide
theorem witness_PlaylistIsReplacedWhole :
    Stands withBlock .setPlaylist (rec 0x11 24 []) ∧ Stands withBlock .setPlaylist (rec 0x11 3 [1]) ∧
    Stands withBlock .setPlaylist (rec 0x11 3 (entryPayload 20)) ∧
    Stands (running .constant []) .setPlaylist (rec 0x11 3 (entryPayload 20)) ∧
    (let p := entryPayload 20;
      decodeEntry 1 (p.getD 0 0) (p.getD 1 0) (p.getD 2 0) = some entry) ∧
    ((settle withBlock).block 5).state ≠ .vacant ∧
    (entry.column < ((settle withBlock).block 5).columns ∧
      entry.lastRow < ((settle withBlock).block 5).rows) ∧
    (let p := entryPayload 9;
      decodeEntry 1 (p.getD 0 0) (p.getD 1 0) (p.getD 2 0) = none) := by decide +kernel
/-- Lane 3 OFF with a converter and a playlist on block 5, rule 4 ARMED and IMMEDIATE. -/
def startable : State :=
  (withBlock.modLane 3 fun x =>
    { x with
      config := { x.config with source := .replay }
      playlist := [⟨entry, true⟩]
      port := { x.port with present := true } }).setRule 4
    { Rule.vacant with state := .armed, fields := fields }
theorem witness_StartPrimesTheLanesThatPass :
    Stands startable .startLanes (rec 0x12 0 [8, 100]) ∧ (8 : Word) ≠ 0 ∧ (8 : Word).toNat < 2 ^ 24 ∧
    startCheck (settle startable) 3 = .done ∧ startCheck (settle startable) 4 = .noPort ∧
    Stands startable .startLanes (rec 0x12 0 [0, 100]) ∧
    (Stands startable .startLanes (rec 0x12 0 [0x1000000, 100]) ∧ 2 ^ 24 ≤ (0x1000000 : Word).toNat) ∧
    (((settle startable).rule 4).state = .armed ∧
      ((settle startable).rule 4).fields.trigger = .immediate) := by decide +kernel
theorem witness_StopTakesLanesOutOfPlay :
    Stands (running .replay [goodWord]) .stopLanes (rec 0x13 0 [8, 0]) ∧
    Stands (running .replay [goodWord]) .stopLanes (rec 0x13 0 [8, 1]) ∧
    Stands (running .constant []) .stopLanes (rec 0x13 0 [8, 1]) ∧
    Stands State.reset .stopLanes (rec 0x13 0 [8, 2]) ∧ Stands State.reset .stopLanes (rec 0x13 0 [0, 0]) ∧
    Stands State.reset .stopLanes (rec 0x13 0 [0x1000000, 1]) ∧
    (8 : Word).getLsbD (3 : LaneId).val = true ∧
    (running .replay [goodWord]).lanes[3].state = .running ∧
    (running .replay [goodWord]).lanes[3].config.source = .replay ∧
    (running .constant []).lanes[3].config.source ≠ .replay ∧
    (∀ r : RuleId, ((fun i : RuleId => decide (i ≠ 4)) r = true) ↔
      ¬(r ∈ ((settle (acting .invert)).lane 3).chain)) := by decide +kernel
theorem witness_ResetLaneClearsItsRecords :
    Stands (running .constant []) .resetLane (rec 0x14 3 []) ∧
    Stands State.reset .resetLane (rec 0x14 24 []) ∧
    (((settle (rule4 .active .immediate false)).rule 4).fields.lane = (3 : LaneId).val ∧
      ((settle (rule4 .active .immediate false)).rule 4).state = .active) := by decide +kernel
/-- Lane 3 RUNNING CONSTANT on curve 2, which a record at the head loads from point 63 on. -/
def loading : State :=
  asked ((running .constant []).modLane 3 fun x => { x with config := { x.config with curve := some 2 } })
    (rec 0x20 63 [0x02000001, 2, 3])
theorem witness_CurveLoadReplacesPoints :
    Headed loading (rec 0x20 63 [0x02000001, 2, 3]) [] ∧
    CarriedOut .loadCurve (rec 0x20 63 [0x02000001, 2, 3]) ∧
    Stands State.reset .loadCurve (rec 0x20 65 [1]) ∧
    Stands State.reset .loadCurve (rec 0x20 0 [0x10000000]) ∧
    16 ≤ (0x10000000 : Word).toNat / 2 ^ 24 % 2 ^ 5 ∧
    (0x02000001 : Word).toNat / 2 ^ 24 % 2 ^ 5 = (2 : CurveId).val := by decide +kernel
theorem witness_CurveLoadReplacesPoints_among :
    2 ≤ (([0x02000001, 2, 3] : List Word).take (65 - 63)).length ∧
    ((settle loading).lane 3).pacing = .timed 100000 100000 ∧ ((settle loading).lane 3).state = .running ∧
    ((settle loading).lane 3).config.source = .constant ∧ ((settle loading).lane 3).chain = [] ∧
    (∀ r, ((settle loading).rule r).state ≠ .armed ∧ ((settle loading).rule r).state ≠ .triggered ∧
      ((settle loading).rule r).endDue = false) ∧
    curveStageOver (settle loading) (settle loading) (some 2) 0 = .code 524288 := by decide +kernel
/-- A LIVE lane's timer runs on after its tick while the link is LOST. -/
theorem witness_CurveLoadReplacesPoints_then :
    let s := asked (lost (running .live [])) (rec 0x20 63 [0x02000001, 2, 3])
    (s.lane 3).pacing = .timed 100000 100000 ∧
      ((after s (.timedTick ⟨3, {}⟩)).lane 3).pacing = .timed 200000 100000 := by decide +kernel

/-! ### Directory, trace commands, rules -/

theorem witness_BlocksAreDefinedAndDeleted_define :
    Stands withBlock .defineBlock (rec 0x30 128 [0, 1, 1]) ∧
    Stands withBlock .defineBlock (rec 0x30 5 [0, 1, 1]) ∧
    Stands withBlock .defineBlock (rec 0x30 6 [8192, 1, 1]) ∧
    Stands withBlock .defineBlock (rec 0x30 6 [0, 1, 1]) ∧
    (((settle withBlock).block 5).state ≠ .vacant ∧ ((settle withBlock).block 5).base < 8192 + 1 * 1 ∧
      8192 < ((settle withBlock).block 5).base +
        ((settle withBlock).block 5).rows * ((settle withBlock).block 5).columns) ∧
    ((settle withBlock).block 6).state = .vacant ∧
    (∀ k, ¬(((settle withBlock).block k).state ≠ .vacant ∧ ((settle withBlock).block k).base < 0 + 1 * 1 ∧
      0 < ((settle withBlock).block k).base +
        ((settle withBlock).block k).rows * ((settle withBlock).block k).columns)) ∧
    ((settle withBlock).dir.fillReq = .idle ∧ (settle withBlock).dir.fillQueue = [] ∧
      (settle withBlock).dir.fillDone = 0) ∧
    (settle (filling 2 .writing)).dir.fillReq ≠ .idle ∧
    4 ≤ (settle { withBlock with dir := { withBlock.dir with fillQueue := [1, 2, 3, 4] } }).dir.fillQueue.length :=
  by decide +kernel
theorem witness_BlocksAreDefinedAndDeleted_delete :
    Stands withBlock .deleteBlock (rec 0x31 128 []) ∧ Stands withBlock .deleteBlock (rec 0x31 6 []) ∧
    Stands withBlock .deleteBlock (rec 0x31 5 []) ∧ ((settle withBlock).block 5).inUse = 0 ∧
    0 < ((settle (withBlock.setBlock 5 ⟨.ready, 8192, 100, 4, 1⟩)).block 5).inUse ∧
    (settle (filling 2 .writing)).dir.fillQueue.head? = some 5 := by decide +kernel
/-- `withBlock` with a valid window. -/
def withWindow : State :=
  { withBlock with cmd := { withBlock.cmd with
    window := some ⟨5, 2, 3, 1, 2, .columnMajor, false, 3, 1, 1⟩ } }
theorem witness_TraceWritesGoThroughTheWindow_refused :
    Stands withBlock .writeTrace (rec 0x33 0 [1, 2]) ∧
    Stands withBlock .writeTrace (rec 0x33 0 [128, 0, 0, 0, 0, 0]) ∧
    Stands withBlock .writeTrace (rec 0x33 0 [6, 0, 0, 0, 0, 0]) ∧
    Stands (filling 2 .writing) .writeTrace (rec 0x33 0 [5, 0, 0, 0, 0, 0]) ∧
    Stands withBlock .writeTrace (rec 0x33 0 [5, 0, 0, 0, 0, 2]) ∧
    Stands withBlock .writeTrace (rec 0x33 0 [5, 3, 2, 0, 0, 0]) := by decide +kernel
theorem witness_TraceWritesGoThroughTheWindow_start :
    Stands withBlock .writeTrace (rec 0x33 0 [5, 2, 100, 1, 2, 1, 9]) ∧
    ((settle withBlock).block 5).state = .ready ∧ ((settle withBlock).block 6).state = .vacant ∧
    ((settle (filling 2 .writing)).block 5).state = .filling := by decide +kernel
theorem witness_TraceWritesGoThroughTheWindow_continue :
    Stands withBlock .writeTrace (rec 0x33 1 [9]) ∧ Stands withWindow .writeTrace (rec 0x33 1 [9]) ∧
    Stands withBlock .writeTrace (rec 0x33 2 []) ∧
    (settle withBlock).cmd.window = none ∧ (settle withWindow).cmd.window ≠ none ∧
    (gather (walkWindow ((settle withWindow).block 5) ⟨5, 2, 3, 1, 2, .columnMajor, false, 3, 1, 0⟩ [9]).1).length =
      1 := by decide +kernel
theorem witness_WalkVisitsTheWindow :
    (let w : Window := ⟨5, 2, 3, 1, 2, .columnMajor, false, 3, 2, 1⟩;
      w.firstRow ≤ w.row ∧ w.row ≤ w.lastRow ∧ w.firstColumn ≤ w.column ∧ w.column ≤ w.lastColumn) := by
  decide
theorem witness_WalkVisitsTheWindow_gatherings :
    (gather [(8201, (1 : Word)), (8217, 2), (8217, 3)]) = [] ++ [(8201, 1)] :: [(8217, 2)] :: [[(8217, 3)]] := by
  decide
theorem witness_TraceReadsGoByGroups :
    Stands withBlock .readTrace (rec 0x34 128 [0, 0, 1]) ∧
    Stands withBlock .readTrace (rec 0x34 6 [0, 0, 1]) ∧
    Stands (filling 2 .writing) .readTrace (rec 0x34 5 [0, 0, 1]) ∧
    Stands withBlock .readTrace (rec 0x34 5 [100, 0, 1]) ∧
    Stands withBlock .readTrace (rec 0x34 5 [99, 3, 63]) ∧
    (99 < ((settle withBlock).block 5).rows ∧ 3 < ((settle withBlock).block 5).columns) := by decide +kernel
theorem witness_RulesAreLoadedAndCleared :
    Stands State.reset .loadRule (rec 0x40 256 (encodeRule fields)) ∧
    Stands State.reset .loadRule (rec 0x40 4 (encodeRule fields)) ∧
    Stands (rule4 .armed .immediate false) .loadRule (rec 0x40 4 (encodeRule fields)) ∧
    ((settle (rule4 .armed .immediate false)).rule 4).state = .armed ∧
    decodeRule 4 (encodeRule fields) = some (fields, false) ∧
    decodeRule 4 (encodeRule { fields with lane := 24 }) = none ∧
    ((settle State.reset).rule 4).state = .vacant ∧
    (Stands State.reset .clearRule (rec 0x41 4 []) ∧ Stands State.reset .clearRule (rec 0x41 256 []) ∧
      Stands (rule4 .armed .immediate false) .clearRule (rec 0x41 4 [])) := by decide +kernel
theorem witness_ArmingReloadsRules :
    (Stands (rule4 .loaded .immediate false) .arm (rec 0x42 256 [0]) ∧
      Stands (rule4 .loaded .immediate false) .arm (rec 0x42 5 [0]) ∧
      Stands (rule4 .armed .immediate false) .arm (rec 0x42 4 [0]) ∧
      Stands (rule4 .loaded .immediate false) .arm (rec 0x42 4 [0])) ∧
    (((settle (rule4 .loaded .immediate false)).rule 4).state = .loaded ∧
      ((settle (rule4 .loaded .immediate false)).rule 5).state = .vacant ∧
      ((settle (rule4 .armed .immediate false)).rule 4).state = .armed) ∧
    (Stands (rule4 .spent .immediate false) .arm (rec 0x42 16 [1]) ∧
      Stands (rule4 .spent .immediate false) .arm (rec 0x42 1 [1]) ∧
      ((settle (rule4 .spent .immediate false)).rule 4).fields.group = 1) ∧
    Stands (rule4 .loaded .immediate false) .arm (rec 0x42 4 [2]) := by decide +kernel
theorem witness_DisarmingReturnsRules :
    (Stands (rule4 .active .immediate false) .disarm (rec 0x43 256 [0]) ∧
      Stands (rule4 .active .immediate false) .disarm (rec 0x43 5 [0]) ∧
      Stands (rule4 .active .immediate false) .disarm (rec 0x43 4 [0])) ∧
    (Stands (rule4 .active .immediate false) .disarm (rec 0x43 16 [1]) ∧
      Stands (rule4 .active .immediate false) .disarm (rec 0x43 1 [1])) ∧
    Stands (rule4 .active .immediate false) .disarm (rec 0x43 4 [2]) ∧
    ([4] : List RuleId).Nodup ∧
    (∀ r : RuleId, r ∈ ([4] : List RuleId) ↔
      r = 4 ∧ (((settle (rule4 .active .immediate false)).rule r).state = .armed ∨
        ((settle (rule4 .active .immediate false)).rule r).state = .triggered ∨
        ((settle (rule4 .active .immediate false)).rule r).state = .active)) := by decide +kernel
theorem witness_FireTriggersItsChannel :
    Stands (rule4 .armed (.onCommand 7) false) .fire (rec 0x44 8 []) ∧
    Stands (rule4 .armed (.onCommand 7) false) .fire (rec 0x44 7 []) ∧
    (((settle (rule4 .armed (.onCommand 7) false)).rule 4).state = .armed ∧
      ((settle (rule4 .armed (.onCommand 7) false)).rule 4).fields.trigger = .onCommand 7 ∧
      ((settle (rule4 .armed (.onCommand 7) false)).lane 3).state = .running) ∧
    ∀ r : RuleId, r ∈ ([4] : List RuleId) ↔
      (((settle (rule4 .armed (.onCommand 7) false)).rule r).state = .armed ∧
        ((settle (rule4 .armed (.onCommand 7) false)).rule r).fields.trigger = .onCommand 7 ∧
        ∃ l : LaneId, ((settle (rule4 .armed (.onCommand 7) false)).rule r).fields.lane = l.val ∧
          (((settle (rule4 .armed (.onCommand 7) false)).lane l).state = .primed ∨
            ((settle (rule4 .armed (.onCommand 7) false)).lane l).state = .running ∨
            ((settle (rule4 .armed (.onCommand 7) false)).lane l).state = .draining)) := by decide +kernel

/-! ### Arithmetic and the latch -/

/-- State.reset with a point of curve 0 that fails its check. -/
def badPoint (k : PointId) : State := State.reset.setPoint 0 k ⟨0, false⟩
theorem witness_CurveStageIsExact :
    ((-8388608 : Int) ≤ -8388608 ∧ (-8388608 : Int) ≤ 8388607) ∧
    (0 : Fin 64).val = (-8388608 + 8388608 : Int).toNat / 262144 ∧
    (63 : Fin 64).val = (8388607 + 8388608 : Int).toNat / 262144 ∧
    (State.reset.point 0 (63 : Fin 64).castSucc).codeOk = true ∧
    (State.reset.point 0 (63 : Fin 64).succ).codeOk = true ∧
    ((badPoint 0).point 0 (0 : Fin 64).castSucc).codeOk = false ∧
    (((badPoint 1).point 0 (0 : Fin 64).castSucc).codeOk = true ∧
      ((badPoint 1).point 0 (0 : Fin 64).succ).codeOk = false) := by decide +kernel
theorem witness_ClampAndInvertStayInRange :
    ((-8388608 : Int) ≤ 5 ∧ (5 : Int) ≤ 5 ∧ (5 : Int) ≤ 8388607) ∧
    decodeAction 5 (signedWord (-5)) (signedWord 5) 0 = some (.clamp (-5) 5) ∧
    (-8388608 : Int) < -8388607 ∧ (Action.clamp (-8388608) 8388607).fits = true := by decide
theorem witness_ReportsMoveTheLatch :
    State.reset.latch.state = .empty ∧
    (ErrorDetail.linkWord.hardLane = none ∧ (ErrorDetail.ruleCheck 3 4).hardLane = some 3) ∧
    (latched (.held ⟨.linkWord, 0⟩)).latch.state = .held ⟨.linkWord, 0⟩ ∧
    (latched (.held ⟨.ruleCheck 3 4, 0⟩)).latch.state = .held ⟨.ruleCheck 3 4, 0⟩ ∧
    (latched (.heldNested ⟨.ruleCheck 3 4, 0⟩)).latch.state = .heldNested ⟨.ruleCheck 3 4, 0⟩ ∧
    ((running .constant []).lane 3).state.inPlay = true ∧ (State.reset.lane 3).state.inPlay = false ∧
    (let s := acting .invert;
      let stays : RuleId → Bool := fun r => r ≠ 4;
      (∀ r, stays r = true ↔ ¬(r ∈ (s.lane 3).chain ∨ ((s.rule r).fields.lane = (3 : LaneId).val ∧
        ((s.rule r).state = .triggered ∨ (s.rule r).state = .active)))) ∧
      (∀ l, l ∈ ([3] : List LaneId) ↔ (s.lane l).state.inPlay = true)) := by
  decide +kernel

end Sys2Proof.Tests
end

section
/-! PROOFS. How each command moves trace memory (R26, R31, R33). -/

namespace Sys2Proof.TraceMemory

open Sys2Proof.Machine

/-! ## What a command does to trace memory -/

/-- What a command may do to trace memory: keep it, write the words of an access in flight that carries data
(R31), or take it through a hard reset (R26, R33). -/
inductive MemoryMove (c : Instr) (s t : State) : Prop where
  | kept (mem : t.mem = s.mem)
  | written (g : GroupId) (a : Access) (ws : List Word) (inFlight : (s.group g).access = some a)
      (data : a.request.data = some ws) (mem : t.mem = s.mem.writeAll (a.request.addresses.zip ws))
  | reset (powerOn : Bool) (command : c = .hardReset powerOn) (mem : t.mem = memoryAfterReset powerOn s)

theorem inFlight_access {s : State} {w : Requester} {g : GroupId} {a : Access}
    (h : inFlight s w = some (g, a)) : (s.group g).access = some a := by
  obtain ⟨k, -, hk⟩ := List.exists_of_findSome?_eq_some h
  split at hk
  · next b hb =>
    split at hk
    · cases hk; exact hb
    · cases hk
  · cases hk

theorem completeAccess_mem_of_read {a : Access} (s : State) (g : GroupId) (h : a.request.data = none) :
    (completeAccess s g a).mem = s.mem := by
  simp [completeAccess, h]

theorem completeAccess_mem_of_write {a : Access} {ws : List Word} (s : State) (g : GroupId)
    (h : a.request.data = some ws) :
    (completeAccess s g a).mem = s.mem.writeAll (a.request.addresses.zip ws) := by
  simp [completeAccess, h]

/-- A completion whose effect beyond its access keeps memory moves it as that access does. -/
theorem MemoryMove.of_completeAccess {c : Instr} {s u t : State} {w : Requester} {g : GroupId} {a : Access}
    (h : inFlight s w = some (g, a)) (before : u.mem = s.mem)
    (after : t.mem = (completeAccess u g a).mem) : MemoryMove c s t := by
  cases hd : a.request.data with
  | none => exact .kept (by rw [after, completeAccess_mem_of_read u g hd, before])
  | some ws =>
    exact .written g a ws (inFlight_access h) hd
      (by rw [after, completeAccess_mem_of_write u g hd, before])

theorem MemoryMove.of_record {c : Instr} {s t : State} (h : RecordFrame s t) : MemoryMove c s t :=
  .kept h.mem

/-! ## What the operations of the completions keep -/

theorem offerNotice_mem (s : State) (k : NoticeKind) (p : List Word) : (offerNotice s k p).mem = s.mem :=
  (tickFrame_offerNotice s k p).mem

theorem fillNext_mem (s : State) : (fillNext s).mem = s.mem := (recordFrame_fillNext s).mem

theorem fillCompleted_mem (s : State) : (fillCompleted s).mem = s.mem := by
  unfold fillCompleted blockReady
  dsimp only
  (repeat' split) <;> simp [fillNext_mem, offerNotice_mem]

theorem reportWritten_mem (s : State) (written : List Nat) : (reportWritten s written).mem = s.mem := by
  unfold reportWritten patchTruncate
  split <;> simp

theorem reports_mem (tag : Nat) (bad : List Nat) (s : State) :
    (bad.foldl (fun s a => report s (.traceRead tag a)) s).mem = s.mem :=
  (tickFrame_foldl _ (fun s _ => tickFrame_report s _) bad s).mem

/-! ## Rows other than those of the Command Unit -/

theorem recordFrame_pass (s : State) (wait : Nat) : RecordFrame s (s.pass wait) := ⟨rfl, rfl, rfl, rfl⟩

theorem recordFrame_reach (s : State) (time : Nat) : RecordFrame s (s.reach time) := ⟨rfl, rfl, rfl, rfl⟩

/-- An event from outside keeps what its effect keeps. -/
theorem recordFrame_fromOutside {s t : State} {wait : Nat} {f : State → State}
    (hf : ∀ u, RecordFrame u (f u)) (h : fromOutside s wait f = .next t) : RecordFrame s t := by
  unfold fromOutside at h
  split at h <;> cases h
  · exact .refl _
  · exact (recordFrame_pass s wait).trans (hf _)

theorem recordFrame_takeSampleWord (s : State) (data : Word) : RecordFrame s (takeSampleWord s data) := by
  unfold takeSampleWord
  split <;> exact ⟨rfl, rfl, rfl, rfl⟩

theorem recordFrame_endAssembly (s : State) : RecordFrame s (endAssembly s) := by
  unfold endAssembly
  split <;> exact ⟨rfl, rfl, rfl, rfl⟩

theorem recordFrame_takeHeader (s : State) (data : Word) : RecordFrame s (takeHeader s data) := by
  refine (recordFrame_endAssembly s).trans ?_
  unfold takeHeader
  dsimp only
  split
  · exact ⟨rfl, rfl, rfl, rfl⟩
  · refine RecordFrame.trans ?_ (tickFrame_offerNotice _ _ _).record
    exact ⟨rfl, rfl, rfl, rfl⟩

theorem recordFrame_takePayload (s : State) (data : Word) : RecordFrame s (takePayload s data) := by
  unfold takePayload
  (repeat' split) <;> exact ⟨rfl, rfl, rfl, rfl⟩

theorem recordFrame_takeBadWord (s : State) : RecordFrame s (takeBadWord s) := by
  unfold takeBadWord
  refine RecordFrame.trans ?_ (tickFrame_report _ _).record
  dsimp only
  split <;> exact ⟨rfl, rfl, rfl, rfl⟩

theorem recordFrame_corrupt (s : State) (item : Corruption) : RecordFrame s (corrupt s item) := by
  unfold corrupt
  split <;> exact ⟨rfl, rfl, rfl, rfl⟩

theorem recordFrame_sendNext (s : State) : RecordFrame s (sendNext s) := by
  unfold sendNext sendWord
  split <;> exact ⟨rfl, rfl, rfl, rfl⟩

theorem recordFrame_returnGoesOn (s : State) : RecordFrame s (returnGoesOn s) := by
  unfold returnGoesOn
  split
  · exact ⟨rfl, rfl, rfl, rfl⟩
  · refine RecordFrame.trans ?_ (recordFrame_sendNext _)
    exact ⟨rfl, rfl, rfl, rfl⟩
  · exact recordFrame_sendNext s

theorem recordFrame_returnWordSent {s t : State} (h : execReturnWordSent s = .next t) : RecordFrame s t := by
  refine (tickFrame_settle s).record.trans ?_
  unfold execReturnWordSent at h
  dsimp only at h
  split at h
  · cases h
    exact (recordFrame_reach _ _).trans (recordFrame_returnGoesOn _)
  · obtain ⟨-, rfl⟩ := whenPossible_eq_next.1 h
    exact recordFrame_returnGoesOn _

theorem recordFrame_issueFetch (s : State) (l : LaneId) (e : PlaylistEntry) (words : List FetchWord) :
    RecordFrame s (issueFetch s l e words) := by
  unfold issueFetch
  split <;> exact ⟨rfl, rfl, rfl, rfl⟩

theorem recordFrame_playlistFails (fetch : FetchOf) (s : State) (e : ErrorDetail) :
    RecordFrame s (playlistFails fetch s e) :=
  (eventFrame_resetAmid fetch.reset _ (fun _ ht s => ht s e) s).record

theorem recordFrame_fetchIssue {fetch : FetchOf} {s t : State} (h : execFetchIssue fetch s = .next t) :
    RecordFrame s t := by
  refine (tickFrame_settle s).record.trans ?_
  unfold execFetchIssue at h
  dsimp only at h
  split at h
  · cases h
  · split at h
    · cases h
      exact recordFrame_playlistFails _ _ _
    · split at h
      · obtain ⟨-, rfl⟩ := whenPossible_eq_next.1 h
        exact recordFrame_issueFetch _ _ _ _
      · cases h
        exact recordFrame_playlistFails _ _ _

theorem recordFrame_endActivationAmid (ending : EndOf) (s : State) :
    RecordFrame s (resetAmid ending.reset (fun _ s => (endActivation s ending.rule, [])) s) :=
  (eventFrame_resetAmid ending.reset _ (fun _ _ s => (tickFrame_endActivation s ending.rule).event) s).record

theorem recordFrame_timedTickRow {tick : TickOf} {s t : State} (h : execTimedTick tick s = .next t) :
    RecordFrame s t := by
  unfold execTimedTick at h
  split at h
  · next u hu =>
    cases h
    exact recordFrame_timedTick (fun _ => .refl) hu
  · cases h

theorem recordFrame_presenceChange {wait : Nat} {l : LaneId} {present : Bool} {s t : State}
    (h : execPresenceChange wait l present s = .next t) : RecordFrame s t := by
  cases h
  dsimp only
  split <;> exact ⟨rfl, rfl, rfl, rfl⟩

theorem recordFrame_silenceTimerExpiry {s t : State} (h : execSilenceTimerExpiry s = .next t) :
    RecordFrame s t := by
  obtain ⟨-, rfl⟩ := whenPossible_eq_next.1 h
  exact ((tickFrame_settle s).record.trans (recordFrame_reach _ _)).trans (recordFrame_linkLost _)

theorem recordFrame_portTransferComplete {l : LaneId} {s t : State}
    (h : execPortTransferComplete l s = .next t) : RecordFrame s t := by
  unfold execPortTransferComplete at h
  split at h <;> cases h
  exact ⟨rfl, rfl, rfl, rfl⟩

/-! ## The rows of the TMC -/

theorem recordFrame_tmcGrant {s t : State} (h : execTmcGrant s = .next t) : RecordFrame s t := by
  unfold execTmcGrant at h
  split at h <;> cases h
  exact ⟨rfl, rfl, rfl, rfl⟩

theorem recordFrame_groupBusyEnd {g : GroupId} {s t : State} (h : execGroupBusyEnd g s = .next t) :
    RecordFrame s t := by
  unfold execGroupBusyEnd at h
  split at h <;> cases h
  exact ⟨rfl, rfl, rfl, rfl⟩

theorem recordFrame_refreshEnd {g : GroupId} {s t : State} (h : execRefreshEnd g s = .next t) :
    RecordFrame s t := by
  unfold execRefreshEnd at h
  split at h <;> cases h
  exact ⟨rfl, rfl, rfl, rfl⟩

theorem recordFrame_refreshDue {g : GroupId} {s t : State} (h : execRefreshDue g s = .next t) :
    RecordFrame s t := by
  obtain ⟨-, rfl⟩ := whenPossible_eq_next.1 h
  exact ⟨rfl, rfl, rfl, rfl⟩

theorem recordFrame_refreshStart {g : GroupId} {s t : State} (h : execRefreshStart g s = .next t) :
    RecordFrame s t := by
  obtain ⟨-, rfl⟩ := whenPossible_eq_next.1 h
  exact ⟨rfl, rfl, rfl, rfl⟩

theorem recordFrame_blockedReplyPlaced {s t : State} (h : execBlockedReplyPlaced s = .next t) :
    RecordFrame s t := by
  unfold execBlockedReplyPlaced at h
  split at h
  · obtain ⟨-, rfl⟩ := whenPossible_eq_next.1 h
    exact recordFrame_placeReply _ _
  · cases h
  · cases h

/-- A row that has its effect when it is possible keeps what the effect keeps. -/
theorem recordFrame_whenPossible {b : Bool} {m : String} {s e t : State} (he : RecordFrame s e)
    (h : whenPossible b m e = .next t) : RecordFrame s t := by
  obtain ⟨-, rfl⟩ := whenPossible_eq_next.1 h
  exact he

/-! ## The completions -/

theorem memoryMove_fetchComplete {c : Instr} {l : LaneId} {s t : State}
    (h : execFetchComplete l s = .next t) : MemoryMove c s t := by
  unfold execFetchComplete at h
  split at h
  · next hi =>
    obtain ⟨-, rfl⟩ := whenPossible_eq_next.1 h
    exact .of_completeAccess hi rfl rfl
  · cases h

theorem memoryMove_voidedFetchComplete {c : Instr} {l : LaneId} {s t : State}
    (h : execVoidedFetchComplete l s = .next t) : MemoryMove c s t := by
  unfold execVoidedFetchComplete at h
  split at h
  · next hi =>
    obtain ⟨-, rfl⟩ := whenPossible_eq_next.1 h
    exact .of_completeAccess hi rfl rfl
  · cases h

theorem memoryMove_fillWriteComplete {c : Instr} {s t : State} (h : execFillWriteComplete s = .next t) :
    MemoryMove c s t := by
  unfold execFillWriteComplete at h
  split at h
  · next hi =>
    cases h
    exact .of_completeAccess hi (tickFrame_settle s).mem (fillCompleted_mem _)
  · cases h

theorem memoryMove_traceWriteComplete {c : Instr} {s t : State} (h : execTraceWriteComplete s = .next t) :
    MemoryMove c s t := by
  unfold execTraceWriteComplete at h
  split at h
  · next hi =>
    dsimp only at h
    split at h <;> cases h
    · exact .of_completeAccess hi (tickFrame_settle s).mem
        ((recordFrame_placeReply _ _).mem.trans (reportWritten_mem _ _))
    · exact .of_completeAccess hi (tickFrame_settle s).mem (reportWritten_mem _ _)
  · cases h

theorem memoryMove_traceReadComplete {c : Instr} {s t : State} (h : execTraceReadComplete s = .next t) :
    MemoryMove c s t := by
  unfold execTraceReadComplete at h
  split at h
  · next hi =>
    dsimp only at h
    split at h <;> cases h
    · exact .of_completeAccess hi (tickFrame_settle s).mem
        ((recordFrame_placeReply _ _).mem.trans (reports_mem _ _ _))
    · exact .of_completeAccess hi (tickFrame_settle s).mem (reports_mem _ _ _)
  · cases h

/-! ## Every command -/

theorem recordFrame_unchanged {m : String} {mine : Place → Bool} {reply : State → Answer} {s t : State}
    (h : takeRecord m mine (fun _ u => (u, reply u)) s = .next t) : RecordFrame s t :=
  recordFrame_takeRecord (fun _ u => .refl u) h

/-- STOP_LANES, WRITE_TRACE, ARM and DISARM rows: a record of another form is refused (R169). -/
theorem recordFrame_ite_refused {b : Prop} [Decidable b] {u : State} {r : State × Answer} {st : Status}
    (h : RecordFrame u r.1) : RecordFrame u (if b then r else (u, refusedWith st)).1 := by
  split
  · exact h
  · exact .refl u

theorem memoryMove_exec {c : Instr} {s t : State} (h : exec c s = .next t) : MemoryMove c s t := by
  cases c with
  | hardReset powerOn => cases h; exact .reset powerOn rfl rfl
  | resetNRisingEdge => obtain ⟨-, rfl⟩ := whenPossible_eq_next.1 h; exact .kept (by simp)
  | cycleMark wait number order =>
    exact .of_record (recordFrame_fromOutside (fun u => (eventFrame_cycleMark number order u).record) h)
  | sample wait data => exact .of_record (recordFrame_fromOutside (fun u => recordFrame_takeSampleWord u data) h)
  | header wait data =>
    exact .of_record (recordFrame_fromOutside
      (fun u => (tickFrame_settle u).record.trans (recordFrame_takeHeader _ data)) h)
  | payload wait data => exact .of_record (recordFrame_fromOutside (fun u => recordFrame_takePayload u data) h)
  | linkWordBad wait =>
    exact .of_record (recordFrame_fromOutside
      (fun u => (tickFrame_settle u).record.trans (recordFrame_takeBadWord _)) h)
  | silenceTimerExpiry => exact .of_record (recordFrame_silenceTimerExpiry h)
  | presenceChange wait l present => exact .of_record (recordFrame_presenceChange h)
  | storeCorruption wait item =>
    exact .of_record (recordFrame_fromOutside
      (fun u => (tickFrame_settle u).record.trans (recordFrame_corrupt _ item)) h)
  | timedTick tick => exact .of_record (recordFrame_timedTickRow h)
  | ruleDelayEnd r => exact .of_record (recordFrame_whenPossible (tickFrame_modRule s r _).record h)
  | ruleDurationEnd ending =>
    exact .of_record (recordFrame_whenPossible (recordFrame_endActivationAmid ending s) h)
  | portTransferComplete l => exact .of_record (recordFrame_portTransferComplete h)
  | fetchIssue fetch => exact .of_record (recordFrame_fetchIssue h)
  | tmcGrant => exact .of_record (recordFrame_tmcGrant h)
  | fetchComplete l => exact memoryMove_fetchComplete h
  | voidedFetchComplete l => exact memoryMove_voidedFetchComplete h
  | fillWriteComplete => exact memoryMove_fillWriteComplete h
  | traceWriteComplete => exact memoryMove_traceWriteComplete h
  | traceReadComplete => exact memoryMove_traceReadComplete h
  | groupBusyEnd g => exact .of_record (recordFrame_groupBusyEnd h)
  | refreshDue g => exact .of_record (recordFrame_refreshDue h)
  | refreshStart g => exact .of_record (recordFrame_refreshStart h)
  | refreshEnd g => exact .of_record (recordFrame_refreshEnd h)
  | returnWordSent => exact .of_record (recordFrame_returnWordSent h)
  | blockedReplyPlaced => exact .of_record (recordFrame_blockedReplyPlaced h)
  | identify => exact .of_record (recordFrame_unchanged (reply := fun _ => .reply .done identifyWords) h)
  | status => exact .of_record (recordFrame_unchanged (reply := fun u => .reply .done (statusWords u)) h)
  | reset =>
    exact .of_record (recordFrame_takeRecord (run := fun _ u => (softReset u, .reply .done []))
      (fun _ u => recordFrame_softReset u) h)
  | setReporting => exact .of_record (recordFrame_takeRecord recordFrame_runSetReporting h)
  | configLane => exact .of_record (recordFrame_takeRecord recordFrame_runConfigLane h)
  | setPlaylist => exact .of_record (recordFrame_takeRecord recordFrame_runSetPlaylist h)
  | startLanes => exact .of_record (recordFrame_takeRecord recordFrame_runStartLanes h)
  | stopLanesNow =>
    exact .of_record (recordFrame_takeRecord
      (fun p u => recordFrame_ite_refused (recordFrame_runStop _ tickFrame_stopLaneNow p u)) h)
  | stopLanesDrain =>
    exact .of_record (recordFrame_takeRecord
      (fun p u => recordFrame_ite_refused (recordFrame_runStop _ tickFrame_stopLaneDrain p u)) h)
  | resetLane => exact .of_record (recordFrame_takeRecord recordFrame_runResetLane h)
  | readLane => exact .of_record (recordFrame_takeRecord recordFrame_runReadLane h)
  | loadCurve among => exact .of_record (recordFrame_takeRecord (recordFrame_runLoadCurve among) h)
  | defineBlock => exact .of_record (recordFrame_takeRecord recordFrame_runDefineBlock h)
  | deleteBlock => exact .of_record (recordFrame_takeRecord recordFrame_runDeleteBlock h)
  | readDirectory => exact .of_record (recordFrame_takeRecord recordFrame_runReadDirectory h)
  | writeTraceStart =>
    exact .of_record (recordFrame_takeRecord
      (fun p u => recordFrame_ite_refused (recordFrame_runWriteStart p u)) h)
  | writeTraceContinue =>
    exact .of_record (recordFrame_takeRecord
      (fun p u => recordFrame_ite_refused (recordFrame_runWriteContinue p u)) h)
  | readTrace => exact .of_record (recordFrame_takeRecord recordFrame_runReadTrace h)
  | loadRule => exact .of_record (recordFrame_takeRecord recordFrame_runLoadRule h)
  | clearRule => exact .of_record (recordFrame_takeRecord recordFrame_runClearRule h)
  | armRule =>
    exact .of_record (recordFrame_takeRecord (fun p u => recordFrame_ite_refused (recordFrame_runArmRule p u)) h)
  | armGroup =>
    exact .of_record (recordFrame_takeRecord (fun p u => recordFrame_ite_refused (recordFrame_runArmGroup p u)) h)
  | disarmRule =>
    exact .of_record (recordFrame_takeRecord
      (fun p u => recordFrame_ite_refused (recordFrame_runDisarmRule p u)) h)
  | disarmGroup =>
    exact .of_record (recordFrame_takeRecord
      (fun p u => recordFrame_ite_refused (recordFrame_runDisarmGroup p u)) h)
  | fire => exact .of_record (recordFrame_takeRecord recordFrame_runFire h)
  | readRule => exact .of_record (recordFrame_takeRecord recordFrame_runReadRule h)
  | readLatch => exact .of_record (recordFrame_unchanged (reply := fun u => .reply .done (latchPayload u.latch)) h)
  | clearLatch =>
    exact .of_record (recordFrame_takeRecord
      (run := fun _ u => ({ u with latch := .reset }, .reply .done (latchPayload u.latch)))
      (fun _ u => (tickFrame_latch u .reset).record) h)
  | unknownCommandRecord =>
    exact .of_record (recordFrame_unchanged (reply := fun _ => refusedWith .unknownCommand) h)

/-! ## O2, O6 -/

theorem memoryAfterReset_wf (powerOn : Bool) {s : State} (h : s.mem.wf = true) :
    (memoryAfterReset powerOn s).wf = true := by
  cases powerOn
  · exact Memory.wf_writeAll _ _ h
  · rfl

theorem MemoryMove.keeps_wf {c : Instr} {s t : State} (move : MemoryMove c s t) (h : s.mem.wf = true) :
    t.mem.wf = true := by
  cases move with
  | kept mem => rw [mem]; exact h
  | written _ _ _ _ _ mem => rw [mem]; exact Memory.wf_writeAll _ _ h
  | reset powerOn _ mem => rw [mem]; exact memoryAfterReset_wf powerOn h

/-- Settles O2: a step idles or takes the front command, and each way in which a command moves memory keeps
the canonical form. -/
theorem memoryFormKeptByEveryStep : Obligations.MemoryFormKeptByEveryStep := by
  intro s t h hs
  unfold step at hs
  split at hs
  · cases hs
    exact h
  · exact (memoryMove_exec hs).keeps_wf h

/-- Settles O6: of the ways in which a command moves memory, the hypotheses leave only that of keeping it. -/
theorem onlyWritesInFlightChangeTraceMemory : Obligations.OnlyWritesInFlightChangeTraceMemory := by
  intro c s t h notReset noData
  cases memoryMove_exec h with
  | kept mem => exact mem
  | written g a ws inFlight data => rw [noData g a inFlight] at data; cases data
  | reset powerOn command => exact absurd command (notReset powerOn)

end Sys2Proof.TraceMemory
end

section
/-! PROOFS. The TMC: the arbiter, completed accesses, extra busy time and refreshes (R25 to R32). -/

namespace Sys2Proof.TraceMemory

open Sys2Proof.Machine

/-! ## Bank groups -/

theorem idle_iff (x : BankGroup) :
    x.idle = true ↔ x.access = none ∧ x.busyUntil = none ∧ x.refreshUntil = none := by
  simp [BankGroup.idle, and_assoc]

theorem eligible_iff (s : State) (r : Request) :
    eligible s r = true ↔
      let g := s.group (groupOf r.first)
      g.access = none ∧ g.busyUntil = none ∧ g.refreshUntil = none ∧ g.refreshWaiting = false := by
  simp [eligible, idle_iff, and_assoc]

/-- Settles O32, row by row; a refresh that falls due starts or waits by whether its group is idle. -/
theorem refreshKeepsItsSchedule : Obligations.RefreshKeepsItsSchedule := by
  unfold Obligations.RefreshKeepsItsSchedule
  intro g s
  refine ⟨?busyEnd, fun high => ⟨?startsAtOnce, ?waits⟩, ?start, ?refreshEnd⟩
  case busyEnd =>
    intro t ht
    simp only [exec, execGroupBusyEnd, ht]
  case startsAtOnce =>
    intro access busy refresh
    have idle : (s.group g).idle = true := (idle_iff _).2 ⟨access, busy, refresh⟩
    simp only [exec, execRefreshDue, high, idle, whenPossible_of, Bool.not_false, if_true]
    rfl
  case waits =>
    intro occupied
    have idle : (s.group g).idle = false := by
      rw [Bool.eq_false_iff, ne_eq, idle_iff]
      tauto
    simp only [exec, execRefreshDue, high, idle, whenPossible_of, Bool.not_false]
    rfl
  case start =>
    intro waiting access busy refresh
    have idle : (s.group g).idle = true := (idle_iff _).2 ⟨access, busy, refresh⟩
    exact whenPossible_of _ _ (by simp [waiting, idle])
  case refreshEnd =>
    intro t ht
    simp only [exec, execRefreshEnd, ht]

/-! ## Completed accesses -/

theorem completeAccess_now (s : State) (g : GroupId) (a : Access) :
    (completeAccess s g a).now = max s.now a.doneAt := by
  unfold completeAccess
  cases a.request.data <;> rfl

theorem completeAccess_group_same (s : State) (g : GroupId) (a : Access) :
    (completeAccess s g a).group g =
      { s.group g with
        openRows := (s.group g).openRows.set (bankOf a.request.first).val
          (if a.request.closeAfter then none else some (rowOf a.request.first))
        access := none
        busyUntil :=
          if a.request.closeAfter then some (max s.now a.doneAt + 20)
          else if a.request.data.isSome then some (max s.now a.doneAt + 15)
          else none } := by
  unfold completeAccess extraBusy
  cases a.request.closeAfter <;> cases a.request.data <;>
    (simp only [State.group_setGroup_same]; rfl)

theorem completeAccess_group_other (s : State) {g k : GroupId} (a : Access) (h : k ≠ g) :
    (completeAccess s g a).group k = s.group k := by
  unfold completeAccess
  cases a.request.data <;> (dsimp only; rw [State.group_setGroup, if_neg (Ne.symm h)]; rfl)

/-- A completed access touches nothing but time, memory and the bank groups. -/
theorem completeAccess_frame (s : State) (g : GroupId) (a : Access) :
    let t := completeAccess s g a
    t = { s with now := t.now, mem := t.mem, tmc := { s.tmc with groups := t.tmc.groups } } := by
  unfold completeAccess
  cases a.request.data <;> rfl

/-- Settles O27. A write's words read back because its addresses are distinct. -/
theorem accessLeavesItsRow : Obligations.AccessLeavesItsRow := by
  intro s g a
  refine ⟨completeAccess_now s g a, completeAccess_mem_of_read s g, ?write,
    completeAccess_group_same s g a, fun k => completeAccess_group_other s a, completeAccess_frame s g a⟩
  case write =>
    intro ws data distinct lengths
    have addresses : (a.request.addresses.zip ws).map Prod.fst = a.request.addresses :=
      List.map_fst_zip lengths.le
    rw [completeAccess_mem_of_write s g data]
    exact ⟨fun k hk => Memory.read_writeAll_mem _ _ (by rwa [addresses]) hk,
      fun b hb => Memory.read_writeAll_other _ _ (by rwa [addresses])⟩

/-! ## Arbitration -/

/-- One step of the arbiter's choice: the better of the best so far and the next request. -/
def better (s : State) (best : Option Request) (r : Request) : Option Request :=
  match best with
  | none => some r
  | some b => if grantedBefore s r b then some r else some b

theorem arbitrate_eq (s : State) :
    arbitrate s = (s.tmc.requests.filter (eligible s)).foldl (better s) none := rfl

/-- From a first candidate on, the choice is one of the candidates, and none goes before it. -/
theorem foldl_better_some (s : State) (l : List Request) (b : Request) :
    ∃ r ∈ b :: l, l.foldl (better s) (some b) = some r ∧ ∀ q ∈ b :: l, grantedBefore s q r = false := by
  induction l generalizing b with
  | nil => exact ⟨b, by simp, rfl, by simp [grantedBefore_irrefl]⟩
  | cons c l ih =>
    simp only [List.foldl_cons, better]
    split
    · next before =>
      obtain ⟨r, hr, choice, first⟩ := ih c
      refine ⟨r, List.mem_cons_of_mem _ hr, choice, fun q hq => ?_⟩
      obtain rfl | hq := List.mem_cons.1 hq
      · exact grantedBefore_trans_false s r c q (first c (by simp)) (grantedBefore_asymm s q c before)
      · exact first q hq
    · next notBefore =>
      obtain ⟨r, hr, choice, first⟩ := ih b
      refine ⟨r, by simp at hr ⊢; tauto, choice, fun q hq => ?_⟩
      obtain rfl | rfl | hq := by simpa using hq
      · exact first q (by simp)
      · exact grantedBefore_trans_false s r b q (first b (by simp)) (by simpa using notBefore)
      · exact first q (by simp [hq])

/-- The arbiter chooses an eligible request that no eligible request goes before. -/
theorem arbitrate_first {s : State} (h : ∃ q ∈ s.tmc.requests, eligible s q = true) :
    ∃ r ∈ s.tmc.requests, eligible s r = true ∧ arbitrate s = some r ∧
      ∀ q ∈ s.tmc.requests, eligible s q = true → grantedBefore s q r = false := by
  obtain ⟨q, hq, he⟩ := h
  have some_eligible : q ∈ s.tmc.requests.filter (eligible s) := List.mem_filter.2 ⟨hq, he⟩
  rw [arbitrate_eq]
  match hl : s.tmc.requests.filter (eligible s), some_eligible with
  | b :: l, _ =>
    obtain ⟨r, hr, choice, first⟩ := foldl_better_some s l b
    rw [← hl] at hr first
    obtain ⟨pending, ready⟩ := List.mem_filter.1 hr
    exact ⟨r, pending, ready, choice, fun q hq he => first q (List.mem_filter.2 ⟨hq, he⟩)⟩

/-- The state after the grant of `r`, an access of this case that takes `time` at full length. -/
def granted (s : State) (r : Request) (c : RowCase) (time : Nat) : State :=
  { s with tmc :=
    { requests := (s.tmc.requests.erase r).map (passedOver s)
      groups := s.tmc.groups.set (groupOf r.first).val
        { s.group (groupOf r.first) with
          access := some ⟨r, c, s.now + (if r.short then time - 8 else time)⟩ } } }

theorem grant_eq_granted {s : State} {r : Request} {c : RowCase} (time : Nat)
    (rowCase : rowCaseOf (s.group (groupOf r.first)) r.first = c)
    (long : accessTime c false = time) (short : accessTime c true = time - 8) :
    grant s r = granted s r c time := by
  have length : accessTime c r.short = if r.short then time - 8 else time := by
    cases r.short <;> simp [long, short]
  unfold grant granted
  dsimp only
  rw [rowCase, length]
  rfl

theorem exec_tmcGrant {s : State} {r : Request} {c : RowCase} (choice : arbitrate s = some r) (time : Nat)
    (rowCase : rowCaseOf (s.group (groupOf r.first)) r.first = c)
    (long : accessTime c false = time) (short : accessTime c true = time - 8) :
    exec .tmcGrant s = .next (granted s r c time) := by
  rw [← grant_eq_granted time rowCase long short]
  simp only [exec, execTmcGrant, choice]

theorem rowCaseOf_hit {x : BankGroup} {a : Nat} (h : x.openRows[(bankOf a).val] = some (rowOf a)) :
    rowCaseOf x a = .hit := by
  simp [rowCaseOf, h]

theorem rowCaseOf_closed {x : BankGroup} {a : Nat} (h : x.openRows[(bankOf a).val] = none) :
    rowCaseOf x a = .closed := by
  simp [rowCaseOf, h]

theorem rowCaseOf_miss {x : BankGroup} {a row : Nat} (h : x.openRows[(bankOf a).val] = some row)
    (other : row ≠ rowOf a) : rowCaseOf x a = .miss := by
  simp [rowCaseOf, h, other]

theorem urgent_iff (s : State) (l : LaneId) :
    urgent s l = true ↔
      (s.lane l).queue.length ≤ 8 ∧ (s.lane l).fetch.map Fetch.voided = some false := by
  unfold urgent Lane.fill
  cases h : (s.lane l).fetch <;> simp [h]

theorem grantedBefore_iff (s : State) (a b : Request) :
    grantedBefore s a b = true ↔ grantClass s a < grantClass s b ∨ grantClass s a = grantClass s b ∧
      (a.issued < b.issued ∨ a.issued = b.issued ∧ a.laneRank < b.laneRank) := by
  simp [grantedBefore]

theorem grantClass_eq (s : State) (r : Request) :
    grantClass s r = match r.requester with
      | .command => if 16 ≤ r.passes then 0 else 4
      | .fill => if 16 ≤ r.passes then 1 else 5
      | .lane l =>
        if (s.lane l).queue.length ≤ 8 ∧ (s.lane l).fetch.map Fetch.voided = some false then 2 else 3 := by
  unfold grantClass
  cases r.requester with
  | lane l => simp only [← urgent_iff]
  | command => rfl
  | fill => rfl

theorem laneRank_eq (r : Request) :
    r.laneRank = match r.requester with
      | .lane l => l.val
      | _ => 0 := by
  unfold Request.laneRank
  cases r.requester <;> rfl

theorem passedOver_eq (s : State) (a : Request) :
    passedOver s a = if (a.requester = .command ∨ a.requester = .fill) ∧ eligible s a = true then
      { a with passes := min 16 (a.passes + 1) } else a := by
  unfold passedOver
  cases h : a.requester <;> simp

/-- Settles O26: the arbiter's choice is a least one of the eligible requests, and its grant is read off by
the row case. -/
theorem arbiterGrantsTheFirst : Obligations.ArbiterGrantsTheFirst := by
  refine ⟨fun s h => ?choice, fun a => ⟨rfl, rfl, rfl⟩, fun s a b => ⟨eligible_iff s a, ?order,
    passedOver_eq s a⟩⟩
  case choice =>
    obtain ⟨r, pending, ready, choice, first⟩ := arbitrate_first h
    exact ⟨r, pending, ready, first,
      fun row => exec_tmcGrant choice 40 (rowCaseOf_hit row) rfl rfl,
      fun row => exec_tmcGrant choice 65 (rowCaseOf_closed row) rfl rfl,
      fun _ row other => exec_tmcGrant choice 85 (rowCaseOf_miss row other) rfl rfl⟩
  case order =>
    rw [grantedBefore_iff, grantClass_eq, grantClass_eq, laneRank_eq, laneRank_eq]
      <;> rfl

end Sys2Proof.TraceMemory
end

section
/-! PROOFS. The completions of fill writes and of the Command Unit's trace accesses (R36, R37, R41 to R44). -/

namespace Sys2Proof.TraceMemory

open Sys2Proof.Machine

/-! ## The fill engine -/

theorem fillAddresses_zeros (b : Block) (n : Nat) :
    ((fillAddresses b n).map fun _ => (0 : Word)) =
      List.replicate (min 16 (b.rows * b.columns - 16 * n)) 0 := by
  rw [List.map_const']
  simp [fillAddresses, Block.words]

theorem fillNext_idle {u : State} (h : u.dir.fillQueue = []) : fillNext u = u := by
  simp [fillNext, h]

/-- The fill engine issues the next write of the head of its queue. -/
theorem fillNext_head {u : State} {b : BlockId} {rest : List BlockId} (h : u.dir.fillQueue = b :: rest) :
    fillNext u =
      let first := (u.block b).base + 16 * u.dir.fillDone
      let count := min 16 ((u.block b).rows * (u.block b).columns - 16 * u.dir.fillDone)
      { u with
        dir := { u.dir with fillReq := .writing }
        tmc := { u.tmc with requests := u.tmc.requests ++
          [⟨.fill, (List.range count).map fun i => first + i, some (List.replicate count 0), false,
            u.now, 0⟩] } } := by
  simp only [fillNext, h, fillAddresses_zeros]
  rfl

theorem fillNext_eq (u : State) :
    fillNext u = match u.dir.fillQueue with
      | [] => u
      | b :: _ =>
        let first := (u.block b).base + 16 * u.dir.fillDone
        let count := min 16 ((u.block b).rows * (u.block b).columns - 16 * u.dir.fillDone)
        { u with
          dir := { u.dir with fillReq := .writing }
          tmc := { u.tmc with requests := u.tmc.requests ++
            [⟨.fill, (List.range count).map fun i => first + i, some (List.replicate count 0), false,
              u.now, 0⟩] } } := by
  split
  · next h => exact fillNext_idle h
  · next h => exact fillNext_head h

theorem fillCompleted_discarded {u : State} (h : u.dir.fillReq = .discarding) :
    fillCompleted u = fillNext { u with dir := { u.dir with fillReq := .idle } } := by
  simp [fillCompleted, h]

theorem fillCompleted_counts {u : State} {b : BlockId} {rest : List BlockId} {n : Nat}
    (counted : u.dir.fillReq ≠ .discarding) (queue : u.dir.fillQueue = b :: rest) (done : u.dir.fillDone = n)
    (more : n + 1 < (u.block b).fillGroups) :
    fillCompleted u = fillNext { u with dir := { u.dir with fillReq := .idle, fillDone := n + 1 } } := by
  subst done
  have notLast : ¬(u.block b).fillGroups ≤ u.dir.fillDone + 1 := by omega
  unfold fillCompleted
  simp only [counted, queue, if_false]
  exact if_neg notLast

theorem fillCompleted_ends {u : State} {b : BlockId} {rest : List BlockId} {n : Nat}
    (counted : u.dir.fillReq ≠ .discarding) (queue : u.dir.fillQueue = b :: rest) (done : u.dir.fillDone = n)
    (last : (u.block b).fillGroups ≤ n + 1) :
    fillCompleted u = fillNext (offerNotice
      { u with dir := { u.dir with
          blocks := u.dir.blocks.set b.val { u.block b with state := .ready }
          fillReq := .idle
          fillDone := 0
          fillQueue := rest } }
      .blockReady [BitVec.ofNat 32 b.val, u.link.currentCycle]) := by
  subst done
  unfold fillCompleted
  simp only [counted, queue, if_false]
  refine (if_pos last).trans ?_
  simp only [blockReady]
  rfl

/-- Settles O29. The directory and the link at the completion are those before it. -/
theorem fillWriteCountsAGroup : Obligations.FillWriteCountsAGroup := by
  intro s g a access requester only t goesOn
  have goesOn_eq : goesOn = fillNext := funext fun u => (fillNext_eq u).symm
  have completes : exec .fillWriteComplete s = .next (fillCompleted t) := by
    simp only [exec, execFillWriteComplete, inFlight_of access requester only]
    rfl
  have dir : t.dir = s.dir := (completeAccess_dir _ g a).trans (settle_dir s)
  have link : t.link = s.link := (completeAccess_link _ g a).trans (tickFrame_settle s).link
  have block (b : BlockId) : t.block b = s.block b := by simp only [State.block, dir]
  rw [completes, goesOn_eq]
  refine ⟨fun h => ?_, fun b rest counted queue => ⟨fun more => ?_, fun last => ?_⟩⟩
  · rw [fillCompleted_discarded (dir ▸ h)]
  · rw [fillCompleted_counts (dir ▸ counted) (dir ▸ queue) (congrArg _ dir) (block b ▸ more)]
  · rw [fillCompleted_ends (dir ▸ counted) (dir ▸ queue) (congrArg _ dir) (block b ▸ last), link]

/-! ## Answers -/

theorem placeReply_eq_replied {u : State} {p : Place} {rest : List Place} (r : Reply)
    (queue : u.cmd.queue = p :: rest) : placeReply u r = replied u p rest r := by
  simp only [placeReply, replied, queue, Config.recordPlaces, List.tail_cons]

theorem holdUnit_eq_heldOn {u : State} {p : Place} {rest : List Place} (job : Job)
    (queue : u.cmd.queue = p :: rest) : holdUnit u job = heldOn u p rest job := by
  simp only [holdUnit, heldOn, queue]

theorem completeAccess_settle_cmd (s : State) (g : GroupId) (a : Access) :
    (completeAccess (settle s) g a).cmd = s.cmd :=
  (completeAccess_cmd _ g a).trans (settle_cmd s)

/-! ## Trace writes -/

theorem patchTruncate_eq (t : State) (b : BlockId) (written : List Nat) :
    patchTruncate t b written = t.mapLanes fun _ x =>
      if x.state.inPlay ∧ ∃ e ∈ x.playlist, e.entry.block = b then x.truncate written else x := by
  simp [patchTruncate]

theorem reportWritten_window {t : State} {w : Window} (written : List Nat) (h : t.cmd.window = some w) :
    reportWritten t written = patchTruncate t w.block written := by
  simp only [reportWritten, h]

theorem exec_traceWriteComplete_last {s : State} {g : GroupId} {a : Access} {first : List (Nat × Word)}
    {reply : Reply} (unit : s.cmd.unit = .held (.write [first] reply))
    (flight : inFlight s .command = some (g, a)) :
    exec .traceWriteComplete s =
      .next (placeReply (reportWritten (completeAccess (settle s) g a) a.request.addresses) reply) := by
  simp only [exec, execTraceWriteComplete, unit, flight]

theorem exec_traceWriteComplete_more {s : State} {g : GroupId} {a : Access} {first cells : List (Nat × Word)}
    {more : List (List (Nat × Word))} {reply : Reply}
    (unit : s.cmd.unit = .held (.write (first :: cells :: more) reply))
    (flight : inFlight s .command = some (g, a)) :
    exec .traceWriteComplete s = .next (holdUnit
      (issueWrite (reportWritten (completeAccess (settle s) g a) a.request.addresses) cells)
      (.write (cells :: more) reply)) := by
  simp only [exec, execTraceWriteComplete, unit, flight]

/-- Settles O30. The written addresses are reported for the window's block, which the completion keeps. -/
theorem traceWriteGoesOn : Obligations.TraceWriteGoesOn := by
  intro s g a first later reply w p rest unit queue window access requester only t u
  have flight := inFlight_of access requester only
  have cmd : t.cmd = s.cmd := completeAccess_settle_cmd s g a
  have reported : reportWritten t a.request.addresses = u := by
    rw [reportWritten_window _ (cmd ▸ window), patchTruncate_eq]
  have queue_u : u.cmd.queue = p :: rest := by simp only [u, State.mapLanes_cmd, cmd, queue]
  refine ⟨?answers, ?goesOn⟩
  case answers =>
    rintro rfl
    rw [exec_traceWriteComplete_last unit flight, reported, placeReply_eq_replied reply queue_u]
  case goesOn =>
    rintro cells more rfl
    rw [exec_traceWriteComplete_more unit flight, reported]
    exact congrArg _ (holdUnit_eq_heldOn (u := issueWrite u cells) _ queue_u)

/-! ## Trace reads -/

theorem reports_cmd (tag : Nat) (bad : List Nat) (s : State) :
    (bad.foldl (fun s a => report s (.traceRead tag a)) s).cmd = s.cmd :=
  (tickFrame_foldl _ (fun s _ => tickFrame_report s _) bad s).cmd

theorem readStatus_eq {α : Type} (errors cut : Bool) (bad : List α) :
    readStatus (errors || !bad.isEmpty) cut =
      if errors = true ∨ bad ≠ [] then .doneErrors else if cut then .adjusted else .done := by
  simp [readStatus]

theorem exec_traceReadComplete_last {s : State} {g : GroupId} {a : Access} {first : List Nat}
    {got : List Word} {cut errors : Bool} {p : Place} {rest : List Place}
    (unit : s.cmd.unit = .held (.read [first] got cut errors)) (queue : s.cmd.queue = p :: rest)
    (flight : inFlight s .command = some (g, a)) :
    let t := completeAccess (settle s) g a
    let bad := failingWords t.mem a.request.addresses
    let u := bad.foldl (fun s k => report s (.traceRead p.tag k)) t
    exec .traceReadComplete s = .next (placeReply u
      ⟨readStatus (errors || !bad.isEmpty) cut, p.tag, p.code, got ++ a.request.addresses.map u.mem.read⟩) := by
  simp only [exec, execTraceReadComplete, unit, queue, flight]

theorem exec_traceReadComplete_more {s : State} {g : GroupId} {a : Access} {first addresses : List Nat}
    {more : List (List Nat)} {got : List Word} {cut errors : Bool} {p : Place} {rest : List Place}
    (unit : s.cmd.unit = .held (.read (first :: addresses :: more) got cut errors))
    (queue : s.cmd.queue = p :: rest) (flight : inFlight s .command = some (g, a)) :
    let t := completeAccess (settle s) g a
    let bad := failingWords t.mem a.request.addresses
    let u := bad.foldl (fun s k => report s (.traceRead p.tag k)) t
    exec .traceReadComplete s = .next (holdUnit (issueRead u addresses)
      (.read (addresses :: more) (got ++ a.request.addresses.map u.mem.read) cut
        (errors || !bad.isEmpty))) := by
  simp only [exec, execTraceReadComplete, unit, queue, flight]

/-- Settles O31. Reports of failing words leave the memory that the words are returned from. -/
theorem traceReadGoesOn : Obligations.TraceReadGoesOn := by
  intro s g a first later got cut errors p rest unit queue access requester only t bad u words
  have flight := inFlight_of access requester only
  have cmd : u.cmd = s.cmd := (reports_cmd p.tag bad t).trans (completeAccess_settle_cmd s g a)
  have queue_u : u.cmd.queue = p :: rest := by rw [cmd, queue]
  have returned : got ++ a.request.addresses.map u.mem.read = words := by
    rw [show u.mem = t.mem from reports_mem p.tag bad t]
  refine ⟨?answers, ?goesOn⟩
  case answers =>
    rintro rfl
    rw [← returned, ← readStatus_eq, ← placeReply_eq_replied _ queue_u]
    exact exec_traceReadComplete_last unit queue flight
  case goesOn =>
    rintro addresses more rfl
    rw [← returned]
    exact (exec_traceReadComplete_more unit queue flight).trans
      (congrArg _ (holdUnit_eq_heldOn (u := issueRead u addresses) _ queue_u))

end Sys2Proof.TraceMemory
end

section
/-! PROOFS. The yield of a fetch, the position after it, and its issue (R25, R47, R48, R52 to R55, R65). -/

namespace Sys2Proof.TraceMemory

open Sys2Proof.Machine

/-! ## Rows of a pass (R47) -/

/-- The row `n` steps on from the position's along its pass. -/
def rowAlong (e : PlaylistEntry) (p : Position) (n : Nat) : Nat :=
  match e.direction with
  | .forward => p.row + n * e.step
  | .reverse => p.row - n * e.step

theorem rowAlong_zero (e : PlaylistEntry) (p : Position) : rowAlong e p 0 = p.row := by
  unfold rowAlong
  split <;> simp

theorem rowAlong_succ (e : PlaylistEntry) (p : Position) (n : Nat) :
    rowAlong e p (n + 1) = nextRow e (rowAlong e p n) := by
  unfold rowAlong nextRow
  cases e.direction <;> simp only [Nat.add_mul, Nat.one_mul] <;> omega

theorem rowAlong_nextRow (e : PlaylistEntry) (p : Position) (n : Nat) :
    rowAlong e { p with row := nextRow e p.row } n = rowAlong e p (n + 1) := by
  unfold rowAlong nextRow
  cases e.direction <;> simp only [Nat.add_mul, Nat.one_mul] <;> omega

theorem lastOfPass_iff (e : PlaylistEntry) (row : Nat) :
    lastOfPass e row = true ↔ match e.direction with
      | .forward => e.lastRow < row + e.step
      | .reverse => row < e.firstRow + e.step := by
  unfold lastOfPass
  cases e.direction <;> simp

theorem finalPass_iff (e : PlaylistEntry) (pass : Nat) :
    finalPass e pass = true ↔ e.passes ≠ 0 ∧ pass = e.passes := by
  simp [finalPass]

/-- Where no row before it ends the pass, the row `n` steps on lies at least `n` away, on the side of the
direction. -/
theorem rowAlong_apart (e : PlaylistEntry) (p : Position) (step : 1 ≤ e.step) (n : Nat)
    (goesOn : ∀ k < n, lastOfPass e (rowAlong e p k) = false) :
    match e.direction with
    | .forward => p.row + n ≤ rowAlong e p n
    | .reverse => rowAlong e p n + n ≤ p.row := by
  induction n with
  | zero => cases e.direction <;> simp [rowAlong_zero]
  | succ n ih =>
    have before := ih fun k hk => goesOn k (by omega)
    have notLast := goesOn n (by omega)
    rw [rowAlong_succ]
    unfold nextRow lastOfPass at *
    cases hd : e.direction <;> simp only [hd, decide_eq_false_iff_not] at * <;> omega

theorem wordAddress_apart (b : Block) (e : PlaylistEntry) {r r' n : Nat} (columns : 1 ≤ b.columns)
    (h : r + n ≤ r') : wordAddress b e r + n ≤ wordAddress b e r' := by
  have rows : (r + n) * b.columns ≤ r' * b.columns := Nat.mul_le_mul_right _ h
  have wide : n ≤ n * b.columns := Nat.le_mul_of_pos_right n columns
  rw [Nat.add_mul] at rows
  unfold wordAddress
  omega

/-- Sixteen steps along a pass lead out of the aligned group of 16 words. -/
theorem otherGroup_of_sixteen (b : Block) (e : PlaylistEntry) (p : Position) (columns : 1 ≤ b.columns)
    (step : 1 ≤ e.step) (goesOn : ∀ k < 16, lastOfPass e (rowAlong e p k) = false) :
    wordAddress b e (rowAlong e p 16) / 16 ≠ wordAddress b e p.row / 16 := by
  have apart := rowAlong_apart e p step 16 goesOn
  cases hd : e.direction <;> simp only [hd] at apart
  · have := wordAddress_apart b e columns apart
    omega
  · have := wordAddress_apart b e columns apart
    omega

/-! ## The yield (R53) -/

/-- The word that a yield from `p` holds at `n`. -/
def yieldWord (b : Block) (e : PlaylistEntry) (p : Position) (n : Nat) : FetchWord :=
  let row := rowAlong e p n
  ⟨wordAddress b e row, { p with row := row }, lastOfPass e row, lastOfPass e row && finalPass e p.pass⟩

theorem yieldWord_nextRow (b : Block) (e : PlaylistEntry) (p : Position) (n : Nat) :
    yieldWord b e { p with row := nextRow e p.row } n = yieldWord b e p (n + 1) := by
  simp only [yieldWord, rowAlong_nextRow]

theorem yieldWord_zero_last (b : Block) (e : PlaylistEntry) (p : Position) (h : lastOfPass e p.row = true) :
    yieldWord b e p 0 = ⟨wordAddress b e p.row, p, true, finalPass e p.pass⟩ := by
  simp [yieldWord, rowAlong_zero, h]

theorem yieldWord_zero_notLast (b : Block) (e : PlaylistEntry) (p : Position)
    (h : lastOfPass e p.row = false) :
    yieldWord b e p 0 = ⟨wordAddress b e p.row, p, false, false⟩ := by
  simp [yieldWord, rowAlong_zero, h]

section Yield

variable {b : Block} {e : PlaylistEntry} {group fuel : Nat} {p : Position}

theorem yieldWords_other (h : wordAddress b e p.row / 16 ≠ group) : yieldWords b e group fuel p = [] := by
  cases fuel <;> simp [yieldWords, h]

theorem yieldWords_last (h : wordAddress b e p.row / 16 = group) (last : lastOfPass e p.row = true) :
    yieldWords b e group (fuel + 1) p = [yieldWord b e p 0] := by
  simp [yieldWords, h, last, yieldWord_zero_last]

theorem yieldWords_goesOn (h : wordAddress b e p.row / 16 = group) (notLast : lastOfPass e p.row = false) :
    yieldWords b e group (fuel + 1) p =
      yieldWord b e p 0 :: yieldWords b e group fuel { p with row := nextRow e p.row } := by
  simp [yieldWords, h, notLast, yieldWord_zero_notLast]

theorem yieldWords_ne_nil (h : wordAddress b e p.row / 16 = group) :
    yieldWords b e group (fuel + 1) p ≠ [] := by
  cases last : lastOfPass e p.row
  · simp [yieldWords_goesOn h last]
  · simp [yieldWords_last h last]

/-- The words of a yield are those along the pass, in its group; before the last none ends the pass, and the
last ends it, or stands before another group or at the end of the fuel. -/
theorem yieldWords_getElem? {n : Nat} {w : FetchWord} (h : (yieldWords b e group fuel p)[n]? = some w) :
    w = yieldWord b e p n ∧ w.address / 16 = group ∧
      (n + 1 < (yieldWords b e group fuel p).length → w.endOfPass = false) ∧
      (n + 1 = (yieldWords b e group fuel p).length → w.endOfPass = true ∨
        wordAddress b e (rowAlong e p (n + 1)) / 16 ≠ group ∨ n + 1 = fuel) := by
  induction fuel generalizing p n with
  | zero => simp [yieldWords] at h
  | succ fuel ih =>
    by_cases inGroup : wordAddress b e p.row / 16 = group
    case neg => simp [yieldWords_other inGroup] at h
    cases last : lastOfPass e p.row with
    | true =>
      rw [yieldWords_last inGroup last] at h ⊢
      obtain ⟨rfl, rfl⟩ : n = 0 ∧ yieldWord b e p 0 = w := by cases n <;> simp_all
      simp [yieldWord_zero_last b e p last, inGroup]
    | false =>
      rw [yieldWords_goesOn inGroup last] at h ⊢
      cases n with
      | zero =>
        obtain rfl : yieldWord b e p 0 = w := by simpa using h
        refine ⟨rfl, ?_, fun _ => ?_, fun alone => .inr ?_⟩
        · simpa [yieldWord, rowAlong_zero] using inGroup
        · simpa [yieldWord, rowAlong_zero] using last
        · cases fuel with
          | zero => exact .inr rfl
          | succ fuel =>
            refine .inl fun same => ?_
            have rest : yieldWords b e group (fuel + 1) { p with row := nextRow e p.row } = [] := by
              simpa using alone
            exact yieldWords_ne_nil (by simpa [rowAlong_succ, rowAlong_zero] using same) rest
      | succ n =>
        obtain ⟨word, same, middle, ending⟩ := ih (n := n) (by simpa using h)
        rw [yieldWord_nextRow] at word
        rw [rowAlong_nextRow] at ending
        refine ⟨word, same, fun more => middle (by simpa using more), fun final => ?_⟩
        obtain stop | other | out := ending (by simpa using final)
        · exact .inl stop
        · exact .inr (.inl other)
        · exact .inr (.inr (by omega))

theorem nextYield_ne_nil (b : Block) (e : PlaylistEntry) (p : Position) : nextYield b e p ≠ [] :=
  yieldWords_ne_nil rfl

/-- The last word of a yield ends the pass or stands before another group: sixteen words never suffice to
stay in it. -/
theorem nextYield_ends (columns : 1 ≤ b.columns) (step : 1 ≤ e.step) {n : Nat} {w : FetchWord}
    (h : (nextYield b e p)[n]? = some w) (final : n + 1 = (nextYield b e p).length) :
    w.endOfPass = true ∨ wordAddress b e (rowAlong e p (n + 1)) / 16 ≠ wordAddress b e p.row / 16 := by
  obtain ⟨word, -, -, ending⟩ := yieldWords_getElem? h
  obtain stop | other | out := ending final
  · exact .inl stop
  · exact .inr other
  · obtain rfl : n = 15 := by omega
    cases stop : w.endOfPass with
    | true => exact .inl rfl
    | false =>
      refine .inr (otherGroup_of_sixteen b e p columns step fun k hk => ?_)
      obtain rfl | before := Nat.eq_or_lt_of_le (Nat.le_of_lt_succ hk)
      · rwa [word] at stop
      · have inside : k < (nextYield b e p).length := by omega
        obtain ⟨wordK, -, middle, -⟩ := yieldWords_getElem? (List.getElem?_eq_getElem inside)
        have goesOn := middle (show k + 1 < (nextYield b e p).length by omega)
        rwa [wordK] at goesOn

end Yield

/-! ## The position after a fetch (R25, R47, R48, R55, R65) -/

theorem following_goesOn (pl : List StoredEntry) {e : PlaylistEntry} {p : Position}
    (h : lastOfPass e p.row = false) : following pl e p = some { p with row := nextRow e p.row } := by
  simp [following, h]

theorem following_nextPass (pl : List StoredEntry) {e : PlaylistEntry} {p : Position}
    (last : lastOfPass e p.row = true) (notFinal : finalPass e p.pass = false) :
    following pl e p = some ⟨p.entry, nextPass e p.pass, startRow e⟩ := by
  simp [following, last, notFinal]

theorem following_afterEntry (pl : List StoredEntry) {e : PlaylistEntry} {p : Position}
    (last : lastOfPass e p.row = true) (final : finalPass e p.pass = true) :
    following pl e p = afterEntry pl p.entry e := by
  simp [following, last, final]

theorem nextPass_eq (e : PlaylistEntry) (pass : Nat) :
    nextPass e pass = if e.passes = 0 ∧ pass = 65535 then 1 else pass + 1 := by
  simp [nextPass]

theorem visitStart_eq (pl : List StoredEntry) (k : Nat) :
    visitStart pl k = pl[k]?.map fun f => ⟨k, 1, startRow f.entry⟩ := by
  unfold visitStart
  cases pl[k]? <;> rfl

theorem advancedPos_drained {x : Lane} {last : FetchWord} (e : PlaylistEntry) (h : last.endOfPass = true)
    (draining : x.state = .draining) : advancedPos x e last = .ended := by
  simp [advancedPos, h, draining]

theorem advancedPos_follows {x : Lane} {last : FetchWord} (e : PlaylistEntry)
    (h : last.endOfPass = false ∨ x.state ≠ .draining) :
    advancedPos x e last = match following x.playlist e last.position with
      | some p => .at p
      | none => .ended := by
  have goesOn : (last.endOfPass && decide (x.state = .draining)) = false := by
    obtain h | h := h <;> simp [h]
  simp only [advancedPos, goesOn] <;> rfl

theorem positionAddress_eq_some {s : State} {x : Lane} {pos : FetchPosition} {a : Nat} :
    positionAddress s x pos = some a ↔ ∃ p f, pos = .at p ∧ x.playlist[p.entry]? = some f ∧
      wordAddress (s.block f.entry.block) f.entry p.row = a := by
  unfold positionAddress
  split
  · next p =>
    split
    · next f hf => simp [hf]
    · next hf => simp [hf]
  · simp
  · simp

theorem closeAfterFor_iff (s : State) (x : Lane) (pos : FetchPosition) (a : Nat) :
    closeAfterFor s x pos a = true ↔
      ∃ p f, pos = .at p ∧ x.playlist[p.entry]? = some f ∧
        wordAddress (s.block f.entry.block) f.entry p.row / 8192 ≠ a / 8192 := by
  have other : closeAfterFor s x pos a = true ↔
      ∃ k, positionAddress s x pos = some k ∧ k / 8192 ≠ a / 8192 := by
    unfold closeAfterFor
    cases positionAddress s x pos <;> simp
  rw [other]
  simp only [positionAddress_eq_some]
  grind

/-! ## The issue of a fetch (R52, R54, R55) -/

theorem fetchWanted_of {x : Lane} {p : Position} (inPlay : x.state.inPlay = true) (free : x.fetch = none)
    (lead : x.entryLead < 2) (places : 0 < x.freePlaces) (pos : x.fetchPos = .at p) :
    x.fetchWanted = some p := by
  simp [Lane.fetchWanted, inPlay, free, lead, places, pos]

theorem entryPasses_iff (s : State) (e : StoredEntry) :
    entryPasses s e = true ↔ e.codeOk = true ∧ e.entry.column < (s.block e.entry.block).columns ∧
      e.entry.lastRow < (s.block e.entry.block).rows := by
  simp [entryPasses, and_assoc]

theorem issueFetch_eq {u : State} {words : List FetchWord} {last : FetchWord} (l : LaneId)
    (e : PlaylistEntry) (h : words.getLast? = some last) :
    issueFetch u l e words =
      let x := u.lane l
      let pos := advancedPos x e last
      { u.setLane l { x with fetch := some ⟨words, false⟩, fetchPos := pos } with
        tmc := { u.tmc with requests := u.tmc.requests ++
          [⟨.lane l, words.map FetchWord.address, none, closeAfterFor u x pos last.address, u.now, 0⟩] } } := by
  simp only [issueFetch, h]
  rfl

section Issue

variable {s : State} {l : LaneId} {p : Position} {e : StoredEntry}

theorem exec_fetchIssue_passes (reset : Option Arrived)
    (wanted : ((settle s).lane l).fetchWanted = some p)
    (entry : ((settle s).lane l).playlist[p.entry]? = some e) (passes : entryPasses (settle s) e = true)
    (room : (nextYield ((settle s).block e.entry.block) e.entry p).length ≤ ((settle s).lane l).freePlaces) :
    exec (.fetchIssue ⟨l, reset⟩) s = .next (issueFetch (settle s) l e.entry
      (nextYield ((settle s).block e.entry.block) e.entry p)) := by
  simp only [exec, execFetchIssue, wanted, entry, passes, if_true]
  exact whenPossible_of _ _ (decide_eq_true room)

theorem exec_fetchIssue_fails (wanted : ((settle s).lane l).fetchWanted = some p)
    (entry : ((settle s).lane l).playlist[p.entry]? = some e) (fails : entryPasses (settle s) e = false) :
    exec (.fetchIssue ⟨l, none⟩) s = .next (report (settle s) (.playlistCheck l p.entry)) := by
  simp only [exec, execFetchIssue, wanted, entry, fails]
  rfl

end Issue

/-- Settles O25: the issue by whether the entry passes its check, then the yield along the pass, and the
position that follows it. -/
theorem fetchIssueReservesItsWords : Obligations.FetchIssueReservesItsWords := by
  refine ⟨?issue, entryPasses_iff, ?yield, ?next, ?position⟩
  case issue =>
    intro l reset s p e u x inPlay free lead pos entry
    refine ⟨?_, fun fails places => ?_⟩
    · intro passes words room
      have some_word : words ≠ [] := nextYield_ne_nil _ _ _
      have places : 0 < x.freePlaces := (List.length_pos_iff.2 some_word).trans_le room
      refine ⟨words.getLast some_word, List.getLast?_eq_some_getLast some_word, ?_⟩
      rw [exec_fetchIssue_passes reset (fetchWanted_of inPlay free lead places pos) entry passes room,
        issueFetch_eq l e.entry (List.getLast?_eq_some_getLast some_word)]
    · exact exec_fetchIssue_fails (fetchWanted_of inPlay free lead places pos) entry fails
  case yield =>
    intro b e p row address ends words columns step
    have ends_iff (n : Nat) : lastOfPass e (rowAlong e p n) = true ↔ ends n := lastOfPass_iff e _
    refine ⟨nextYield_ne_nil b e p, fun n w h => ?_⟩
    obtain ⟨word, same, middle, -⟩ := yieldWords_getElem? h
    have ending := nextYield_ends columns step h
    have address_zero : address 0 = wordAddress b e p.row := by
      show wordAddress b e (rowAlong e p 0) = _
      rw [rowAlong_zero]
    subst word
    rw [address_zero]
    refine ⟨rfl, rfl, ends_iff n, ?_, same, fun more => ?_, fun final => ?_⟩
    · simp [yieldWord, ends_iff, finalPass_iff]
    · rw [← ends_iff, Bool.not_eq_true]
      exact middle more
    · exact (ending final).imp_left (ends_iff n).1
  case next =>
    intro pl e p start visit ends
    have ends_iff : lastOfPass e p.row = true ↔ ends := lastOfPass_iff e _
    refine ⟨fun goesOn => ?_, fun last notFinal => ?_, fun last endless final => ?_⟩
    · exact following_goesOn pl (by rwa [← ends_iff, Bool.not_eq_true] at goesOn)
    · have notFinalPass : finalPass e p.pass = false := by
        rw [← Bool.not_eq_true, finalPass_iff]
        tauto
      rw [following_nextPass pl (ends_iff.2 last) notFinalPass, nextPass_eq]
        <;> rfl
    · rw [following_afterEntry pl (ends_iff.2 last) ((finalPass_iff e _).2 ⟨endless, final⟩)]
      unfold afterEntry
      simp only [visitStart_eq] <;> rfl
  case position =>
    intro s x e last pos a
    exact ⟨fun h draining => advancedPos_drained e h draining, advancedPos_follows e,
      closeAfterFor_iff s x pos a⟩

end Sys2Proof.TraceMemory
end

section
/-! PROOFS. The walk of a window, gatherings, read groups and stored words (R26, R40, R41, R44). -/

namespace Sys2Proof.TraceMemory

open Sys2Proof.Machine

/-! ## Stored words (R26, R40) -/

/-- The count of the lowest bits of a number does not see the bits above them. -/
theorem onesOf_add_mul (k a m : Nat) : onesOf k (a + 2 ^ k * m) = onesOf k a := by
  induction k generalizing a with
  | zero => rfl
  | succ k ih =>
    have twice : 2 ^ (k + 1) * m = 2 * (2 ^ k * m) := by ring
    simp only [onesOf, twice]
    rw [show (a + 2 * (2 ^ k * m)) / 2 = a / 2 + 2 ^ k * m by omega, ih]
    omega

theorem sealTraceWord_toNat (poison : Bool) (d : Word) :
    ∃ low high : Nat, low < 2 ∧ high < 2 ∧
      (sealTraceWord poison d).toNat = d.toNat % 2 ^ 30 + low * 2 ^ 30 + high * 2 ^ 31 ∧
      (low != checkLow (d.toNat % 2 ^ 30)) = poison ∧ (high != checkHigh (d.toNat % 2 ^ 30)) = poison := by
  have low : checkLow (d.toNat % 2 ^ 30) < 2 := Nat.mod_lt _ (by decide)
  have high : checkHigh (d.toNat % 2 ^ 30) < 2 := Nat.mod_lt _ (by decide)
  refine ⟨if poison then 1 - checkLow (d.toNat % 2 ^ 30) else checkLow (d.toNat % 2 ^ 30),
    if poison then 1 - checkHigh (d.toNat % 2 ^ 30) else checkHigh (d.toNat % 2 ^ 30), ?_, ?_, ?_, ?_, ?_⟩
  · split <;> omega
  · split <;> omega
  · simp only [sealTraceWord, bitsAt, pow_zero, Nat.div_one, BitVec.toNat_ofNat]
    apply Nat.mod_eq_of_lt
    have data : d.toNat % 2 ^ 30 < 2 ^ 30 := Nat.mod_lt _ (by decide)
    split <;> omega
  · cases poison <;> simp; omega
  · cases poison <;> simp; omega

theorem sealTraceWord_fails (poison : Bool) (d : Word) : traceWordFails (sealTraceWord poison d) = poison := by
  obtain ⟨low, high, hl, hh, stored, lowBit, highBit⟩ := sealTraceWord_toNat poison d
  have data : d.toNat % 2 ^ 30 < 2 ^ 30 := Nat.mod_lt _ (by decide)
  unfold traceWordFails
  rw [stored]
  generalize d.toNat % 2 ^ 30 = n at *
  have lowHalf : checkLow (n + low * 2 ^ 30 + high * 2 ^ 31) = checkLow n := by
    rw [checkLow, show n + low * 2 ^ 30 + high * 2 ^ 31 = n + 2 ^ 16 * (low * 2 ^ 14 + high * 2 ^ 15) by ring,
      onesOf_add_mul, checkLow]
  have highHalf : checkHigh (n + low * 2 ^ 30 + high * 2 ^ 31) = checkHigh n := by
    rw [checkHigh, show (n + low * 2 ^ 30 + high * 2 ^ 31) / 65536 = n / 65536 + 2 ^ 14 * (low + high * 2) by omega,
      onesOf_add_mul, checkHigh]
  have bit30 : bitsAt (n + low * 2 ^ 30 + high * 2 ^ 31) 30 1 = low := by
    unfold bitsAt
    omega
  have bit31 : bitsAt (n + low * 2 ^ 30 + high * 2 ^ 31) 31 1 = high := by
    unfold bitsAt
    omega
  simp only [lowHalf, highHalf, bit30, bit31, lowBit, highBit, Bool.or_self]

theorem sealTraceWord_data (poison : Bool) (d : Word) :
    (sealTraceWord poison d).setWidth 30 = d.setWidth 30 := by
  obtain ⟨low, high, -, -, stored, -, -⟩ := sealTraceWord_toNat poison d
  apply BitVec.eq_of_toNat_eq
  rw [BitVec.toNat_setWidth, BitVec.toNat_setWidth, stored]
  omega

/-! ## The walk (R40) -/

/-- The lower digit of a count with `size` values of it moves on, or starts again and carries. -/
theorem next_digit {size n : Nat} (h : 0 < size) :
    (n % size + 1 < size → (n + 1) % size = n % size + 1 ∧ (n + 1) / size = n / size) ∧
      (n % size + 1 = size → (n + 1) % size = 0 ∧ (n + 1) / size = n / size + 1) := by
  have split := Nat.div_add_mod n size
  refine ⟨fun inside => ?_, fun carry => ?_⟩
  · have shape : n + 1 = n % size + 1 + size * (n / size) := by omega
    rw [shape, Nat.add_mul_mod_self_left, Nat.mod_eq_of_lt inside, Nat.add_mul_div_left _ _ h,
      Nat.div_eq_of_lt inside]
    simp
  · have shape : n + 1 = size * (n / size + 1) := by rw [Nat.mul_add]; omega
    rw [shape, Nat.mul_mod_right, Nat.mul_div_cancel_left _ h]
    simp

/-- The window with its pointer at the `n`-th cell of the walk, counted on past the last cell. -/
def cellAt (w : Window) (n : Nat) : Window :=
  let rows := w.lastRow - w.firstRow + 1
  let columns := w.lastColumn - w.firstColumn + 1
  { w with
    row := match w.order with
      | .rowMajor => w.firstRow + n / columns % rows
      | .columnMajor => w.firstRow + n % rows
    column := match w.order with
      | .rowMajor => w.firstColumn + n % columns
      | .columnMajor => w.firstColumn + n / rows % columns
    wraps := w.wraps + n / (rows * columns) }

/-- The number of the pointer's cell in walk order. -/
def cellOf (w : Window) : Nat :=
  match w.order with
  | .rowMajor => (w.row - w.firstRow) * (w.lastColumn - w.firstColumn + 1) + (w.column - w.firstColumn)
  | .columnMajor => (w.column - w.firstColumn) * (w.lastRow - w.firstRow + 1) + (w.row - w.firstRow)

/-- The next cell of a grid counted with the digit of size `inner` first: the cell beside it, the first cell
of the next line, or, past the last line, the first cell with one wrap more. -/
theorem next_cell {inner outer n : Nat} (hi : 0 < inner) (ho : 0 < outer) :
    (n % inner + 1 < inner → (n + 1) % inner = n % inner + 1 ∧
      (n + 1) / inner % outer = n / inner % outer ∧ (n + 1) / (inner * outer) = n / (inner * outer)) ∧
    (n % inner + 1 = inner → n / inner % outer + 1 < outer → (n + 1) % inner = 0 ∧
      (n + 1) / inner % outer = n / inner % outer + 1 ∧ (n + 1) / (inner * outer) = n / (inner * outer)) ∧
    (n % inner + 1 = inner → n / inner % outer + 1 = outer → (n + 1) % inner = 0 ∧
      (n + 1) / inner % outer = 0 ∧ (n + 1) / (inner * outer) = n / (inner * outer) + 1) := by
  simp only [← Nat.div_div_eq_div_mul]
  obtain ⟨moves, carries⟩ := next_digit (n := n) hi
  obtain ⟨lineMoves, wraps⟩ := next_digit (n := n / inner) ho
  refine ⟨fun inside => ?_, fun edge inside => ?_, fun edge corner => ?_⟩
  · obtain ⟨digit, line⟩ := moves inside
    simp [digit, line]
  · obtain ⟨digit, line⟩ := carries edge
    simpa [digit, line] using lineMoves inside
  · obtain ⟨digit, line⟩ := carries edge
    simpa [digit, line] using wraps corner

theorem advance_cellAt_rowMajor {w : Window} (n : Nat) (order : w.order = .rowMajor) :
    (cellAt w n).advance = cellAt w (n + 1) := by
  obtain ⟨beside, below, wrapped⟩ := next_cell (n := n) (Nat.succ_pos (w.lastColumn - w.firstColumn))
    (Nat.succ_pos (w.lastRow - w.firstRow))
  have column := Nat.mod_lt n (Nat.succ_pos (w.lastColumn - w.firstColumn))
  have row := Nat.mod_lt (n / (w.lastColumn - w.firstColumn + 1)) (Nat.succ_pos (w.lastRow - w.firstRow))
  unfold Window.advance cellAt
  simp only [order, Nat.mul_comm (w.lastRow - w.firstRow + 1)]
  simp only [Nat.succ_eq_add_one] at *
  split
  · obtain ⟨digit, line, wraps⟩ := beside (by omega)
    simp [digit, line, wraps, Nat.add_assoc]
  · split
    · obtain ⟨digit, line, wraps⟩ := below (by omega) (by omega)
      simp [digit, line, wraps, Nat.add_assoc]
    · obtain ⟨digit, line, wraps⟩ := wrapped (by omega) (by omega)
      simp [digit, line, wraps, Nat.add_assoc]

theorem advance_cellAt_columnMajor {w : Window} (n : Nat) (order : w.order = .columnMajor) :
    (cellAt w n).advance = cellAt w (n + 1) := by
  obtain ⟨below, beside, wrapped⟩ := next_cell (n := n) (Nat.succ_pos (w.lastRow - w.firstRow))
    (Nat.succ_pos (w.lastColumn - w.firstColumn))
  have row := Nat.mod_lt n (Nat.succ_pos (w.lastRow - w.firstRow))
  have column := Nat.mod_lt (n / (w.lastRow - w.firstRow + 1)) (Nat.succ_pos (w.lastColumn - w.firstColumn))
  unfold Window.advance cellAt
  simp only [order]
  simp only [Nat.succ_eq_add_one] at *
  split
  · obtain ⟨digit, line, wraps⟩ := below (by omega)
    simp [digit, line, wraps, Nat.add_assoc]
  · split
    · obtain ⟨digit, line, wraps⟩ := beside (by omega) (by omega)
      simp [digit, line, wraps, Nat.add_assoc]
    · obtain ⟨digit, line, wraps⟩ := wrapped (by omega) (by omega)
      simp [digit, line, wraps, Nat.add_assoc]

/-- A step of the walk goes from a cell to the next one. -/
theorem advance_cellAt (w : Window) (n : Nat) : (cellAt w n).advance = cellAt w (n + 1) := by
  cases order : w.order
  · exact advance_cellAt_rowMajor n order
  · exact advance_cellAt_columnMajor n order

/-- The digits of a cell's number are the cell's place. -/
theorem digits_of_cell {inner outer i o : Nat} (hi : i < inner) (ho : o < outer) :
    (o * inner + i) % inner = i ∧ (o * inner + i) / inner % outer = o ∧
      (o * inner + i) / (inner * outer) = 0 := by
  have line : (o * inner + i) / inner = o := by
    rw [Nat.mul_comm, Nat.mul_add_div (by omega), Nat.div_eq_of_lt hi, Nat.add_zero]
  rw [← Nat.div_div_eq_div_mul, line, Nat.mul_comm, Nat.mul_add_mod, Nat.mod_eq_of_lt hi,
    Nat.mod_eq_of_lt ho, Nat.div_eq_of_lt ho]
  exact ⟨rfl, rfl, rfl⟩

theorem cellAt_cellOf (w : Window) (r0 : w.firstRow ≤ w.row) (r1 : w.row ≤ w.lastRow)
    (c0 : w.firstColumn ≤ w.column) (c1 : w.column ≤ w.lastColumn) : cellAt w (cellOf w) = w := by
  have row : w.row - w.firstRow < w.lastRow - w.firstRow + 1 := by omega
  have column : w.column - w.firstColumn < w.lastColumn - w.firstColumn + 1 := by omega
  cases order : w.order
  · obtain ⟨digit, line, wraps⟩ := digits_of_cell column row
    simp [cellAt, cellOf, order, digit, line, Nat.mul_comm (w.lastRow - w.firstRow + 1), wraps, r0, c0]
    rw [← order]
  · obtain ⟨digit, line, wraps⟩ := digits_of_cell row column
    simp [cellAt, cellOf, order, digit, line, wraps, r0, c0]
    rw [← order]

/-- The words of a walk from a cell on stand in the cells that follow it. -/
theorem walkWindow_cellAt (b : Block) (w : Window) (data : List Word) (n : Nat) :
    walkWindow b (cellAt w n) data =
      (data.mapIdx fun i d => ((cellAt w (n + i)).address b, sealTraceWord w.poison d),
        cellAt w (n + data.length)) := by
  induction data generalizing n with
  | nil => rfl
  | cons d rest ih =>
    simp only [walkWindow, advance_cellAt, ih, List.mapIdx_cons, List.length_cons,
      Nat.add_zero, Nat.add_right_comm n 1, ← Nat.add_assoc]
    rfl

/-! ## Gatherings (R41) -/

/-- One word after a gathering ends it: it lies in another group than one of its words, or at its address. -/
def Ends (g h : List (Nat × Word)) : Prop :=
  ∀ c ∈ h.head?, ∃ d ∈ g, c.1 / 16 ≠ d.1 / 16 ∨ c.1 = d.1

/-- A gathering has words, at distinct addresses of one aligned group. -/
def Gathered (g : List (Nat × Word)) : Prop :=
  g ≠ [] ∧ (g.map Prod.fst).Nodup ∧ ∀ c ∈ g, ∀ d ∈ g, c.1 / 16 = d.1 / 16

theorem gathered_singleton (c : Nat × Word) : Gathered [c] := by
  simp [Gathered]

theorem Gathered.append {g : List (Nat × Word)} (h : Gathered g) {c : Nat × Word}
    (fits : ∀ d ∈ g, d.1 / 16 = c.1 / 16 ∧ d.1 ≠ c.1) : Gathered (g ++ [c]) := by
  obtain ⟨words, distinct, same⟩ := h
  refine ⟨by simp, ?_, ?_⟩
  · simp only [List.map_append, List.map_cons, List.map_nil, List.nodup_append, List.nodup_singleton]
    refine ⟨distinct, trivial, ?_⟩
    simp only [List.mem_map, List.mem_singleton]
    rintro _ ⟨d, hd, rfl⟩ _ rfl
    exact (fits d hd).2
  · simp only [List.mem_append, List.mem_singleton]
    rintro d (hd | rfl) d' (hd' | rfl)
    · exact same d hd d' hd'
    · exact (fits d hd).1
    · exact (fits d' hd').1.symm
    · rfl

/-- Where a word does not go into a gathering. -/
theorem ends_of_not_fits {g : List (Nat × Word)} {c : Nat × Word}
    (h : ¬∀ d ∈ g, d.1 / 16 = c.1 / 16 ∧ d.1 ≠ c.1) : ∃ d ∈ g, c.1 / 16 ≠ d.1 / 16 ∨ c.1 = d.1 := by
  push Not at h
  obtain ⟨d, hd, h⟩ := h
  refine ⟨d, hd, ?_⟩
  by_cases same : d.1 / 16 = c.1 / 16
  · exact .inr (h same).symm
  · exact .inl (Ne.symm same)

theorem gatherFrom_fits {g : List (Nat × Word)} {c : Nat × Word} (rest : List (Nat × Word))
    (h : ∀ d ∈ g, d.1 / 16 = c.1 / 16 ∧ d.1 ≠ c.1) :
    gatherFrom g (c :: rest) = gatherFrom (g ++ [c]) rest := by
  rw [gatherFrom, if_pos (by simpa using h)]

theorem gatherFrom_ends {g : List (Nat × Word)} {c : Nat × Word} (rest : List (Nat × Word))
    (h : ¬∀ d ∈ g, d.1 / 16 = c.1 / 16 ∧ d.1 ≠ c.1) :
    gatherFrom g (c :: rest) = g :: gatherFrom [c] rest := by
  rw [gatherFrom, if_neg (by simpa using h)]

/-- Gatherings keep the order of the words, and each ends only where the next word does not go into it. -/
theorem gatherFrom_spec (g l : List (Nat × Word)) (h : Gathered g) :
    (gatherFrom g l).flatten = g ++ l ∧ (∀ k ∈ gatherFrom g l, Gathered k) ∧
      (gatherFrom g l).IsChain Ends ∧ ∀ k ∈ (gatherFrom g l).head?, g <+: k := by
  induction l generalizing g with
  | nil => simpa [gatherFrom] using h
  | cons c rest ih =>
    by_cases fits : ∀ d ∈ g, d.1 / 16 = c.1 / 16 ∧ d.1 ≠ c.1
    · obtain ⟨order, each, chain, first⟩ := ih _ (h.append fits)
      rw [gatherFrom_fits rest fits]
      exact ⟨by simpa using order, each, chain, fun k hk => List.IsPrefix.trans ⟨[c], rfl⟩ (first k hk)⟩
    · obtain ⟨order, each, chain, first⟩ := ih _ (gathered_singleton c)
      rw [gatherFrom_ends rest fits]
      refine ⟨by simp [order], by simpa using ⟨h, each⟩, ?_, by simp⟩
      rw [List.isChain_cons]
      refine ⟨fun k hk => ?_, chain⟩
      obtain ⟨tail, rfl⟩ := first k hk
      simpa [Ends] using ends_of_not_fits fits

theorem gather_spec (l : List (Nat × Word)) :
    (gather l).flatten = l ∧ (∀ k ∈ gather l, Gathered k) ∧ (gather l).IsChain Ends := by
  cases l with
  | nil => simp [gather]
  | cons c rest =>
    obtain ⟨order, each, chain, -⟩ := gatherFrom_spec [c] rest (gathered_singleton c)
    exact ⟨order, each, chain⟩

/-- Settles O51: the walk counts cells from the pointer's own on, and gatherings end by their rule. -/
theorem walkVisitsTheWindow : Obligations.WalkVisitsTheWindow := by
  refine ⟨?walk, fun poison d => ⟨sealTraceWord_fails poison d, sealTraceWord_data poison d⟩⟩
  case walk =>
    intro b w data r0 r1 c0 c1 rows columns rowOfCell columnOfCell first walk
    have first_eq : first = cellOf w := rfl
    have walk_eq : walk = (data.mapIdx fun i d => ((cellAt w (first + i)).address b, sealTraceWord w.poison d),
        cellAt w (first + data.length)) := by
      rw [← walkWindow_cellAt, first_eq, cellAt_cellOf w r0 r1 c0 c1]
    obtain ⟨order, each, chain⟩ := gather_spec walk.1
    refine ⟨by rw [walk_eq]; rfl, by rw [walk_eq]; rfl, order, each, ?_⟩
    intro before g h later split
    rw [split, List.isChain_append_cons_cons] at chain
    exact chain.2.1

end Sys2Proof.TraceMemory
end

section
/-! PROOFS. The commands of the directory and of trace memory: DEFINE_BLOCK, DELETE_BLOCK, WRITE_TRACE and
READ_TRACE (R35 to R44, R169). -/

namespace Sys2Proof.TraceMemory

open Sys2Proof.Machine

/-! ## DEFINE_BLOCK (R35, R36) -/

theorem blockFits_iff (base rows columns : Nat) :
    blockFits base rows columns = true ↔
      base % 16 = 0 ∧ 1 ≤ rows ∧ 1 ≤ columns ∧ columns ≤ 16 ∧ base + rows * columns ≤ 536870912 := by
  unfold blockFits Config.traceWords
  simp [and_assoc, Nat.one_le_iff_ne_zero, Nat.pos_iff_ne_zero]

theorem overlaps_iff (base words : Nat) (b : Block) :
    b.overlaps base words = true ↔
      b.state ≠ .vacant ∧ b.base < base + words ∧ base < b.base + b.rows * b.columns := by
  unfold Block.overlaps Block.words
  simp [and_assoc]

/-- Some descriptor of the directory satisfies a test. -/
theorem anyBlock_iff (u : State) (f : Block → Bool) :
    u.dir.blocks.toList.any f = true ↔ ∃ k, f (u.block k) = true := by
  simp only [List.any_eq_true, Vector.mem_toList_iff, Vector.mem_iff_getElem]
  constructor
  · rintro ⟨x, ⟨i, hi, rfl⟩, hx⟩
    exact ⟨⟨i, hi⟩, hx⟩
  · rintro ⟨k, hk⟩
    exact ⟨_, ⟨k.val, k.isLt, rfl⟩, hk⟩

/-- A block FILLING at the tail of the fill queue. -/
def defined (u : State) (b : BlockId) (base rows columns : Nat) : State :=
  { u with dir := { u.dir with
      blocks := u.dir.blocks.set b.val ⟨.filling, base, rows, columns, 0⟩
      fillQueue := u.dir.fillQueue ++ [b] } }

theorem defineBlock_busy {u : State} {b : BlockId} {base rows columns : Nat} (h : u.dir.fillReq ≠ .idle) :
    defineBlock u b base rows columns = defined u b base rows columns := by
  unfold defineBlock
  exact if_neg h

/-- With an idle engine and an empty queue the new block's first fill write is issued. -/
theorem defineBlock_idle {u : State} {b : BlockId} {base rows columns : Nat} (idle : u.dir.fillReq = .idle)
    (empty : u.dir.fillQueue = []) (done : u.dir.fillDone = 0) :
    defineBlock u b base rows columns =
      let v := defined u b base rows columns
      let count := min 16 (rows * columns)
      { v with
        dir := { v.dir with fillReq := .writing }
        tmc := { v.tmc with requests := v.tmc.requests ++
          [⟨.fill, (List.range count).map fun i => base + i, some (List.replicate count 0), false,
            u.now, 0⟩] } } := by
  have issues : defineBlock u b base rows columns = fillNext (defined u b base rows columns) := by
    unfold defineBlock
    exact if_pos idle
  have head : (defined u b base rows columns).dir.fillQueue = b :: [] := by simp [defined, empty]
  have block : (defined u b base rows columns).block b = ⟨.filling, base, rows, columns, 0⟩ := by
    simp [defined, State.block]
  rw [issues, fillNext_head head, block]
  simp [defined, done]

section Define

variable {s v : State} {p : Place} {rest : List Place} {st : Status} {w : List Word}

theorem exec_defineBlock (h : Headed s p rest) (hc : CarriedOut .defineBlock p)
    (run : runDefineBlock p (settle s) = (v, .reply st w)) (queue : v.cmd = (settle s).cmd) :
    exec .defineBlock s = .next (replied v p rest ⟨st, p.tag, p.code, w⟩) :=
  takeRecord_reply h hc (isCommand_carriedOut hc) run (congrArg _ queue)

theorem exec_deleteBlock (h : Headed s p rest) (hc : CarriedOut .deleteBlock p)
    (run : runDeleteBlock p (settle s) = (v, .reply st w)) (queue : v.cmd.queue = (settle s).cmd.queue) :
    exec .deleteBlock s = .next (replied v p rest ⟨st, p.tag, p.code, w⟩) :=
  takeRecord_reply h hc (isCommand_carriedOut hc) run queue

end Define

/-- A definition at the block `b`, judged in the order of R35. -/
def judgedDefine (u : State) (b : BlockId) (base rows columns : Nat) : State × Answer :=
  if (u.block b).state ≠ .vacant then (u, .reply .blockBusy [])
  else if !blockFits base rows columns then (u, .reply .badValue [])
  else if u.dir.blocks.toList.any (Block.overlaps base (rows * columns)) then (u, .reply .overlap [])
  else if 4 ≤ u.dir.fillQueue.length then (u, .reply .fillBusy [])
  else (defineBlock u b base rows columns, .reply .done [])

theorem runDefineBlock_at {p : Place} {b : BlockId} (u : State) (index : p.index = b.val) :
    runDefineBlock p u = judgedDefine u b (p.payload.getD 0 0).toNat (p.payload.getD 1 0).toNat
      (p.payload.getD 2 0).toNat := by
  simp only [runDefineBlock, toFin?_val b index]
  rfl

section Judged

variable {u : State} {b : BlockId} {base rows columns : Nat}

theorem judgedDefine_taken (taken : (u.block b).state ≠ .vacant) :
    judgedDefine u b base rows columns = (u, .reply .blockBusy []) := if_pos taken

theorem judgedDefine_unfit (vacant : (u.block b).state = .vacant) (unfit : ¬blockFits base rows columns = true) :
    judgedDefine u b base rows columns = (u, .reply .badValue []) := by
  simp [judgedDefine, vacant, unfit]

theorem judgedDefine_overlap (vacant : (u.block b).state = .vacant) (fit : blockFits base rows columns = true)
    (clash : ∃ k, (u.block k).overlaps base (rows * columns) = true) :
    judgedDefine u b base rows columns = (u, .reply .overlap []) := by
  simp only [judgedDefine, vacant, fit, (anyBlock_iff u _).2 clash, ne_eq, not_true, Bool.not_true, if_true,
    if_false, Bool.false_eq_true]

/-- Past the checks of the block itself, the places of the fill queue decide. -/
theorem judgedDefine_clear (vacant : (u.block b).state = .vacant) (fit : blockFits base rows columns = true)
    (clear : ¬∃ k, (u.block k).overlaps base (rows * columns) = true) :
    judgedDefine u b base rows columns =
      if 4 ≤ u.dir.fillQueue.length then (u, .reply .fillBusy [])
      else (defineBlock u b base rows columns, .reply .done []) := by
  simp only [judgedDefine, vacant, fit, (anyBlock_iff u _).not.2 clear, ne_eq, not_true, Bool.not_true, if_false,
    Bool.false_eq_true]

end Judged

/-! ## DELETE_BLOCK (R37, R43) -/

theorem dropFill_eq (d : Directory) (b : BlockId) :
    d.dropFill b = { d with
      fillQueue := d.fillQueue.erase b
      fillDone := if d.fillQueue.head? = some b then 0 else d.fillDone
      fillReq := if d.fillQueue.head? = some b ∧ d.fillReq = .writing then .discarding else d.fillReq } := by
  obtain ⟨blocks, queue, done, req⟩ := d
  cases queue with
  | nil => simp [Directory.dropFill]
  | cons h rest =>
    by_cases head : h = b
    · cases req <;> simp [Directory.dropFill, head]
    · simp [Directory.dropFill, head]

theorem windowWithout_eq (b : BlockId) (w : Option Window) :
    windowWithout b w = match w with
      | none => none
      | some x => if x.block = b then none else some x := by
  unfold windowWithout
  cases w <;> rfl

theorem runDeleteBlock_vacant {u : State} {p : Place} {b : BlockId} (index : p.index = b.val)
    (h : (u.block b).state = .vacant) : runDeleteBlock p u = (u, .reply .noBlock []) := by
  simp only [runDeleteBlock, toFin?_val b index, h, refusedWith]

theorem runDeleteBlock_used {u : State} {p : Place} {b : BlockId} (index : p.index = b.val)
    (h : (u.block b).state ≠ .vacant) (used : 0 < (u.block b).inUse) :
    runDeleteBlock p u = (u, .reply .blockBusy []) := by
  cases hs : (u.block b).state
  · exact absurd hs h
  all_goals simp only [runDeleteBlock, toFin?_val b index, hs, used, if_true, refusedWith]

theorem runDeleteBlock_free {u : State} {p : Place} {b : BlockId} (index : p.index = b.val)
    (h : (u.block b).state ≠ .vacant) (free : (u.block b).inUse = 0) :
    runDeleteBlock p u =
      ({ u with
          dir := (u.setBlock b .vacant).dir.dropFill b
          cmd := { u.cmd with window := windowWithout b u.cmd.window } }, .reply .done []) := by
  have unused : ¬0 < (u.block b).inUse := by omega
  cases hs : (u.block b).state
  · exact absurd hs h
  all_goals
    simp only [runDeleteBlock, toFin?_val b index, hs, unused, if_false]
    rfl

/-- Settles O49: each clause is one branch of the command, in the order of R35 and R37. -/
theorem blocksAreDefinedAndDeleted : Obligations.BlocksAreDefinedAndDeleted := by
  intro s p rest headed u answer
  refine ⟨?define, ?delete⟩
  case define =>
    intro carried base rows columns fits overlaps
    have answers {v : State} {st : Status} (run : runDefineBlock p u = (v, .reply st [])) (cmd : v.cmd = u.cmd) :
        exec .defineBlock s = answer v st := exec_defineBlock headed carried run cmd
    have fits_iff : blockFits base rows columns = true ↔ fits := blockFits_iff _ _ _
    have overlaps_iff (k : BlockId) : (u.block k).overlaps base (rows * columns) = true ↔ overlaps (u.block k) :=
      TraceMemory.overlaps_iff _ _ _
    refine ⟨fun high => ?_, fun b index => ?_⟩
    · exact answers (by simp only [runDefineBlock, toFin?_none high, refusedWith]) rfl
    have run : runDefineBlock p u = judgedDefine u b base rows columns := runDefineBlock_at u index
    refine ⟨fun taken => ?_, fun vacant => ⟨fun unfit => ?_, fun fit clash => ?_, fun fit clear => ?_⟩⟩
    · exact answers (run.trans (judgedDefine_taken taken)) rfl
    · exact answers (run.trans (judgedDefine_unfit vacant (fits_iff.not.2 unfit))) rfl
    · have clash := (exists_congr overlaps_iff).2 clash
      exact answers (run.trans (judgedDefine_overlap vacant (fits_iff.2 fit) clash)) rfl
    · have clear := (exists_congr overlaps_iff).not.2 (not_exists.2 clear)
      rw [judgedDefine_clear vacant (fits_iff.2 fit) clear] at run
      refine ⟨fun full => answers (run.trans (if_pos full)) rfl, fun room => ?_⟩
      rw [if_neg (by omega)] at run
      refine ⟨fun busy => ?_, fun idle empty done => ?_⟩
      · exact answers (run.trans (by rw [defineBlock_busy busy]; rfl)) rfl
      · exact answers (run.trans (by rw [defineBlock_idle idle empty done]; rfl)) rfl
  case delete =>
    intro carried
    have answers {v : State} {st : Status} (run : runDeleteBlock p u = (v, .reply st []))
        (queue : v.cmd.queue = u.cmd.queue) : exec .deleteBlock s = answer v st :=
      exec_deleteBlock headed carried run queue
    refine ⟨fun high => ?_, fun b index => ⟨fun vacant => ?_, fun taken used => ?_, fun taken free => ?_⟩⟩
    · exact answers (by simp only [runDeleteBlock, toFin?_none high, refusedWith]) rfl
    · exact answers (runDeleteBlock_vacant index vacant) rfl
    · exact answers (runDeleteBlock_used index taken used) rfl
    · refine answers ?_ rfl
      rw [runDeleteBlock_free index taken free, dropFill_eq, windowWithout_eq] <;> rfl

end Sys2Proof.TraceMemory
end

section
/-! PROOFS. WRITE_TRACE and READ_TRACE (R39 to R44, R169). -/

namespace Sys2Proof.TraceMemory

open Sys2Proof.Machine

/-! ## WRITE_TRACE (R39 to R43, R169) -/

/-- The state once a record's data words have moved the pointer of its window. -/
def walked (u : State) (w : Window) (data : List Word) : State :=
  { u with cmd := { u.cmd with window := some (walkWindow (u.block w.block) w data).2 } }

/-- The reply of a record whose data words have been walked through its window. -/
def walkReply (u : State) (p : Place) (w : Window) (data : List Word) (st : Status) : Reply :=
  ⟨st, p.tag, p.code, writeReplyWords data.length (walkWindow (u.block w.block) w data).2⟩

theorem writeThrough_nil (u : State) (p : Place) (w : Window) (st : Status) :
    writeThrough u p w [] st = (walked u w [], .reply st (walkReply u p w [] st).payload) := rfl

theorem writeThrough_gathered {u : State} {w : Window} {data : List Word} {cells : List (Nat × Word)}
    {later : List (List (Nat × Word))} (p : Place) (st : Status)
    (h : gather (walkWindow (u.block w.block) w data).1 = cells :: later) :
    writeThrough u p w data st =
      (issueWrite (walked u w data) cells, .working (.write (cells :: later) (walkReply u p w data st))) := by
  simp only [writeThrough, h]
  rfl

section Write

variable {s : State} {p : Place} {rest : List Place}

/-- A row that writes its data words through a window answers at once where there are none, and else issues
the first gathering and holds the unit. -/
theorem goesThrough {row : Instr} {m : String} {mine : Place → Bool} {run : Place → State → State × Answer}
    {c : Command} {w : Window} {data : List Word} {st : Status} (headed : Headed s p rest)
    (carried : CarriedOut c p) (takes : exec row s = takeRecord m mine run s) (hm : mine p = true)
    (hr : run p (settle s) = writeThrough (settle s) p w data st) :
    (data = [] → exec row s = .next (replied (walked (settle s) w data) p rest
      (walkReply (settle s) p w data st))) ∧
    (∀ cells later, gather (walkWindow ((settle s).block w.block) w data).1 = cells :: later →
      exec row s = .next (heldOn (issueWrite (walked (settle s) w data) cells) p rest
        (.write (cells :: later) (walkReply (settle s) p w data st)))) := by
  rw [takes]
  refine ⟨?_, fun cells later h => ?_⟩
  · rintro rfl
    exact takeRecord_reply headed carried hm (hr.trans (writeThrough_nil _ p w st)) rfl
  · exact takeRecord_working headed carried hm (hr.trans (writeThrough_gathered p st h)) rfl

end Write

/-- What the row of START does with a record, by its index (R169). -/
def startRun (p : Place) (u : State) : State × Answer :=
  if p.index = 0 then runWriteStart p u else (u, refusedWith .badValue)

/-- What the row of CONTINUE does with a record, by its index (R169). -/
def continueRun (p : Place) (u : State) : State × Answer :=
  if p.index = 1 then runWriteContinue p u else (u, refusedWith .badValue)

/-- A WRITE_TRACE record with another index than `other`, or one that R167 refuses, is taken by a row. -/
def takesWriteForm (other : Nat) (p : Place) : Bool :=
  isCommand .writeTrace p && ((judge p).isSome || p.index != other)

theorem exec_writeTraceStart (s : State) :
    exec .writeTraceStart s = takeRecord "WRITE_TRACE_START" (takesWriteForm 1) startRun s := rfl

theorem exec_writeTraceContinue (s : State) :
    exec .writeTraceContinue s = takeRecord "WRITE_TRACE_CONTINUE" (takesWriteForm 0) continueRun s := rfl

theorem takesWriteForm_of {p : Place} {other : Nat} (carried : CarriedOut .writeTrace p) (h : p.index ≠ other) :
    takesWriteForm other p = true := by
  simp [takesWriteForm, isCommand_carriedOut carried, h]

theorem startRun_undefined {p : Place} (u : State) (h : 2 ≤ p.index) :
    startRun p u = (u, .reply .badValue []) := if_neg (by omega)

theorem continueRun_undefined {p : Place} (u : State) (h : 2 ≤ p.index) :
    continueRun p u = (u, .reply .badValue []) := if_neg (by omega)

theorem field_order (flags : Word) : field flags 0 2 = flags.toNat % 4 := by
  simp [field, bitsAt]

theorem field_poison (flags : Word) : decide (field flags 8 1 = 1) = flags.getLsbD 8 := by
  rw [← BitVec.testBit_toNat, Nat.testBit_eq_decide_div_mod_eq]
  rfl

theorem walkOrderOf_undefined {n : Nat} (h : 2 ≤ n) : walkOrderOf n = none := by
  match n, h with
  | n + 2, _ => rfl

/-- A START on a block in range, after the block's own state: the window's ORDER, then its ranges. -/
def openedStart (u : State) (p : Place) (k : BlockId) : State × Answer :=
  let b := u.block k
  let firstRow := (param p.payload 1).toNat
  let lastRow := (param p.payload 2).toNat
  let firstColumn := (param p.payload 3).toNat
  let lastColumn := (param p.payload 4).toNat
  let flags := param p.payload 5
  match walkOrderOf (field flags 0 2) with
  | none => refuseStart u .badValue
  | some order =>
    match openWindow k b firstRow lastRow firstColumn lastColumn order (field flags 8 1 = 1) with
    | none => refuseStart u .badValue
    | some w =>
      let clamped := decide (b.rows ≤ firstRow) || decide (b.rows ≤ lastRow) ||
        decide (b.columns ≤ firstColumn) || decide (b.columns ≤ lastColumn)
      writeThrough u p w (p.payload.drop 6) (if clamped then .adjusted else .done)

theorem runWriteStart_short {p : Place} (u : State) (short : p.payload.length < 6) :
    runWriteStart p u = refuseStart u .badLength := if_pos short

theorem runWriteStart_badIndex {p : Place} (u : State) (long : 6 ≤ p.payload.length)
    (high : 128 ≤ (p.payload.getD 0 0).toNat) : runWriteStart p u = refuseStart u .badIndex := by
  unfold runWriteStart
  rw [if_neg (by omega)]
  simp only [param, toFin?_none high]

theorem runWriteStart_at {p : Place} {k : BlockId} (u : State) (long : 6 ≤ p.payload.length)
    (id : (p.payload.getD 0 0).toNat = k.val) :
    runWriteStart p u = match (u.block k).state with
      | .vacant => refuseStart u .noBlock
      | .filling => refuseStart u .notReady
      | .ready => openedStart u p k := by
  unfold runWriteStart
  rw [if_neg (by omega)]
  simp only [param, toFin?_val k id] <;> rfl

section Opened

variable {u : State} {p : Place} {k : BlockId}

/-- Whether the ranges that a START names for block `b` hold a cell once clamped to the block. -/
def rangesMeet (p : Place) (b : Block) : Prop :=
  min (p.payload.getD 1 0).toNat (b.rows - 1) ≤ min (p.payload.getD 2 0).toNat (b.rows - 1) ∧
    min (p.payload.getD 3 0).toNat (b.columns - 1) ≤ min (p.payload.getD 4 0).toNat (b.columns - 1)

/-- The window of a START on block `k`, clamped to it, with its pointer at the first cell. -/
def startWindow (p : Place) (k : BlockId) (b : Block) (order : WalkOrder) : Window :=
  let r0 := min (p.payload.getD 1 0).toNat (b.rows - 1)
  let c0 := min (p.payload.getD 3 0).toNat (b.columns - 1)
  ⟨k, r0, min (p.payload.getD 2 0).toNat (b.rows - 1), c0,
    min (p.payload.getD 4 0).toNat (b.columns - 1), order, (p.payload.getD 5 0).getLsbD 8, r0, c0, 0⟩

theorem openedStart_badOrder (h : 2 ≤ (p.payload.getD 5 0).toNat % 4) :
    openedStart u p k = refuseStart u .badValue := by
  simp only [openedStart, param, field_order, walkOrderOf_undefined h]

theorem openedStart_empty (h : ¬rangesMeet p (u.block k)) : openedStart u p k = refuseStart u .badValue := by
  unfold openedStart
  dsimp only
  split
  · rfl
  · have none : ∀ order poison, openWindow k (u.block k) (param p.payload 1).toNat (param p.payload 2).toNat
        (param p.payload 3).toNat (param p.payload 4).toNat order poison = none := fun _ _ => if_neg h
    rw [none]

theorem openedStart_opens {order : WalkOrder} (defined : walkOrderOf ((p.payload.getD 5 0).toNat % 4) = some order)
    (h : rangesMeet p (u.block k)) :
    openedStart u p k = writeThrough u p (startWindow p k (u.block k) order) (p.payload.drop 6)
      (if (u.block k).rows ≤ (p.payload.getD 1 0).toNat ∨ (u.block k).rows ≤ (p.payload.getD 2 0).toNat ∨
          (u.block k).columns ≤ (p.payload.getD 3 0).toNat ∨ (u.block k).columns ≤ (p.payload.getD 4 0).toNat
        then .adjusted else .done) := by
  have opens : openWindow k (u.block k) (p.payload.getD 1 0).toNat (p.payload.getD 2 0).toNat
      (p.payload.getD 3 0).toNat (p.payload.getD 4 0).toNat order ((p.payload.getD 5 0).getLsbD 8) =
        some (startWindow p k (u.block k) order) := if_pos h
  unfold openedStart param
  simp only [field_order, field_poison, defined, opens, Bool.or_eq_true, decide_eq_true_eq, or_assoc]

end Opened

theorem walkOrderOf_code (order : WalkOrder) :
    walkOrderOf (match order with | .rowMajor => 0 | .columnMajor => 1) = some order := by
  cases order <;> rfl

theorem continueRun_window {u : State} {p : Place} {w : Window} (index : p.index = 1)
    (h : u.cmd.window = some w) : continueRun p u = writeThrough u p { w with wraps := 0 } p.payload .done := by
  simp only [continueRun, index, if_true, runWriteContinue, h]

theorem continueRun_noWindow {u : State} {p : Place} (index : p.index = 1) (h : u.cmd.window = none) :
    continueRun p u = (u, .reply .noWindow []) := by
  simp only [continueRun, index, if_true, runWriteContinue, h, refusedWith]

/-- Settles O50: START by its checks in order, CONTINUE by its window, and both rows refuse another index. -/
theorem traceWritesGoThroughTheWindow : Obligations.TraceWritesGoThroughTheWindow := by
  intro s p rest headed carried u through
  refine ⟨?start, ?goesOn, ?undefined⟩
  case start =>
    intro index refused id r0 r1 c0 c1 flags
    have mine : takesWriteForm 1 p = true := takesWriteForm_of carried (by omega)
    have start : startRun p u = runWriteStart p u := if_pos index
    have refuses {st : Status} (run : runWriteStart p u = refuseStart u st) : refused st :=
      (exec_writeTraceStart s).trans (takeRecord_reply headed carried mine (start.trans run) rfl)
    refine ⟨fun short => refuses (runWriteStart_short u short), fun long =>
      ⟨fun high => refuses (runWriteStart_badIndex u long high), ?_⟩⟩
    intro k hk b lastRow lastColumn window
    have run := runWriteStart_at u long hk
    have ready (h : b.state = .ready) : runWriteStart p u = openedStart u p k := by rw [run, h]
    refine ⟨fun h => refuses (by rw [run, h]), fun h => refuses (by rw [run, h]), fun h undefined => ?_,
      fun h empty => ?_, fun order h code rows columns => ?_⟩
    · exact refuses ((ready h).trans (openedStart_badOrder undefined))
    · refine refuses ((ready h).trans (openedStart_empty fun meet => ?_))
      obtain ⟨rows, columns⟩ := meet
      exact empty.elim (fun k => absurd rows (Nat.not_le.2 k)) (fun k => absurd columns (Nat.not_le.2 k))
    · have ordered := (congrArg walkOrderOf code).trans (walkOrderOf_code order)
      have opens := openedStart_opens (u := u) (k := k) ordered ⟨rows, columns⟩
      exact goesThrough headed carried (exec_writeTraceStart s) mine (start.trans ((ready h).trans opens))
  case goesOn =>
    intro index
    have mine : takesWriteForm 0 p = true := takesWriteForm_of carried (by omega)
    refine ⟨fun closed => ?_, fun w opened => ?_⟩
    · exact (exec_writeTraceContinue s).trans
        (takeRecord_reply headed carried mine (continueRun_noWindow index closed) rfl)
    · exact goesThrough headed carried (exec_writeTraceContinue s) mine (continueRun_window index opened)
  case undefined =>
    intro high
    exact ⟨(exec_writeTraceStart s).trans (takeRecord_reply headed carried (takesWriteForm_of carried (by omega))
        (startRun_undefined u high) rfl),
      (exec_writeTraceContinue s).trans (takeRecord_reply headed carried (takesWriteForm_of carried (by omega))
        (continueRun_undefined u high) rfl)⟩

/-! ## READ_TRACE (R44) -/

/-- The words of a list lie in one aligned group of 16. -/
def SameGroup (g : List Nat) : Prop := ∀ x ∈ g, ∀ y ∈ g, x / 16 = y / 16

/-- No word of one list lies in an aligned group of the other. -/
def Apart (g h : List Nat) : Prop := ∀ x ∈ g, ∀ y ∈ h, x / 16 ≠ y / 16

theorem readGroups_ne_nil (l : List Nat) : ∀ g ∈ readGroups l, g ≠ [] := by
  induction l with
  | nil => simp [readGroups]
  | cons a rest ih =>
    rw [readGroups]
    split
    · split <;> simp_all
    · simp_all
    · simp

/-- One address more opens a group of its own before the groups of the rest, or joins the first of them. -/
theorem readGroups_cons (a : Nat) (rest : List Nat) :
    (readGroups rest = [] ∧ readGroups (a :: rest) = [[a]]) ∨
      ∃ b g gs, readGroups rest = (b :: g) :: gs ∧
        (a / 16 = b / 16 ∧ readGroups (a :: rest) = (a :: b :: g) :: gs ∨
          a / 16 ≠ b / 16 ∧ readGroups (a :: rest) = [a] :: (b :: g) :: gs) := by
  match h : readGroups rest with
  | [] => exact .inl ⟨rfl, by simp only [readGroups, h]⟩
  | [] :: gs => exact absurd rfl (readGroups_ne_nil rest [] (by simp [h]))
  | (b :: g) :: gs =>
    refine .inr ⟨b, g, gs, rfl, ?_⟩
    by_cases same : a / 16 = b / 16
    · exact .inl ⟨same, by simp only [readGroups, h, same, if_true]⟩
    · exact .inr ⟨same, by simp only [readGroups, h, same, if_false]⟩

theorem readGroups_flatten (l : List Nat) : (readGroups l).flatten = l := by
  induction l with
  | nil => rfl
  | cons a rest ih =>
    obtain ⟨none, eq⟩ | ⟨b, g, gs, groups, ⟨-, eq⟩ | ⟨-, eq⟩⟩ := readGroups_cons a rest
    · rw [eq, ← ih, none]
      rfl
    · rw [eq, ← ih, groups]
      rfl
    · rw [eq, ← ih, groups]
      rfl

theorem SameGroup.cons {a b : Nat} {g : List Nat} (h : SameGroup (b :: g)) (same : a / 16 = b / 16) :
    SameGroup (a :: b :: g) := by
  have first : ∀ x ∈ a :: b :: g, x / 16 = b / 16 :=
    List.forall_mem_cons.2 ⟨same, fun x hx => h x hx b (by simp)⟩
  exact fun x hx y hy => (first x hx).trans (first y hy).symm

theorem Apart.cons {a b : Nat} {g k : List Nat} (h : Apart (b :: g) k) (same : a / 16 = b / 16) :
    Apart (a :: b :: g) k :=
  List.forall_mem_cons.2 ⟨fun y hy => same ▸ h b (by simp) y hy, h⟩

theorem SameGroup.apart {a b : Nat} {g : List Nat} (h : SameGroup (b :: g)) (other : a / 16 ≠ b / 16) :
    Apart [a] (b :: g) := by
  intro x hx y hy
  obtain rfl := List.mem_singleton.1 hx
  exact fun same => other (same.trans (h y hy b (by simp)))

/-- Each group lies in one aligned group, another than that of the next. -/
theorem readGroups_spec (l : List Nat) :
    (∀ g ∈ readGroups l, SameGroup g) ∧ (readGroups l).IsChain Apart := by
  induction l with
  | nil => simp [readGroups]
  | cons a rest ih =>
    obtain ⟨-, eq⟩ | ⟨b, g, gs, groups, ⟨same, eq⟩ | ⟨other, eq⟩⟩ := readGroups_cons a rest
    · simp [eq, SameGroup]
    all_goals
      rw [groups, List.forall_mem_cons] at ih
      obtain ⟨⟨first, later⟩, chain⟩ := ih
      rw [eq]
    · obtain ⟨next, chain⟩ := List.isChain_cons.1 chain
      exact ⟨List.forall_mem_cons.2 ⟨first.cons same, later⟩,
        List.isChain_cons.2 ⟨fun k hk => (next k hk).cons same, chain⟩⟩
    · exact ⟨List.forall_mem_cons.2 ⟨by simp [SameGroup], List.forall_mem_cons.2 ⟨first, later⟩⟩,
        List.isChain_cons_cons.2 ⟨first.apart other, chain⟩⟩

/-- The addresses that a READ_TRACE of `wanted` words from cell `first` of a block reads. -/
def readAddresses (b : Block) (first wanted : Nat) : List Nat :=
  (List.range wanted).map fun i => b.base + first + i

section Read

variable {u : State} {p : Place} {k : BlockId}

theorem runReadTrace_unread (index : p.index = k.val) {st : Status}
    (h : (u.block k).state = .vacant ∧ st = .noBlock ∨ (u.block k).state = .filling ∧ st = .notReady) :
    runReadTrace p u = (u, .reply st []) := by
  obtain ⟨h, rfl⟩ | ⟨h, rfl⟩ := h <;> simp only [runReadTrace, toFin?_val k index, h, refusedWith]

/-- READ_TRACE of a READY block, judged by its row, column and count. -/
theorem runReadTrace_ready (index : p.index = k.val) (ready : (u.block k).state = .ready) :
    let b := u.block k
    let row := (p.payload.getD 0 0).toNat
    let column := (p.payload.getD 1 0).toNat
    let count := (p.payload.getD 2 0).toNat
    let wanted := min count (b.rows * b.columns - (row * b.columns + column))
    let groups := readGroups (readAddresses b (row * b.columns + column) wanted)
    runReadTrace p u =
      if row < b.rows ∧ column < b.columns ∧ 1 ≤ count ∧ count ≤ 63 then
        (issueRead u (groups.headD []), .working (.read groups [] (decide (wanted < count)) false))
      else (u, .reply .badValue []) := by
  simp only [runReadTrace, toFin?_val k index, ready]
  rfl

end Read

/-- A cell of a block has words left to read from it on. -/
theorem cell_lt_words {row column rows columns : Nat} (hr : row < rows) (hc : column < columns) :
    row * columns + column < rows * columns := by
  have line : (row + 1) * columns ≤ rows * columns := Nat.mul_le_mul_right _ hr
  rw [Nat.add_mul] at line
  omega

/-- Settles O52: the addresses read ascend from the first cell, and are cut where their aligned group
changes. -/
theorem traceReadsGoByGroups : Obligations.TraceReadsGoByGroups := by
  intro s p rest headed carried u row column count refused
  have refuses {st : Status} (run : runReadTrace p u = (u, .reply st [])) : refused st :=
    takeRecord_reply headed carried (isCommand_carriedOut carried) run rfl
  refine ⟨fun high => refuses (by simp only [runReadTrace, toFin?_none high, refusedWith]), ?_⟩
  intro k index b fits
  have run (ready : b.state = .ready) := runReadTrace_ready (p := p) index ready
  refine ⟨fun h => refuses (runReadTrace_unread index (.inl ⟨h, rfl⟩)),
    fun h => refuses (runReadTrace_unread index (.inr ⟨h, rfl⟩)),
    fun h unfit => refuses ((run h).trans (if_neg unfit)), ?_⟩
  intro ready fit first wanted
  obtain ⟨rowFits, columnFits, some_word, -⟩ := id fit
  have left : first < b.rows * b.columns := cell_lt_words rowFits columnFits
  have addresses : readGroups (readAddresses b first wanted) ≠ [] := by
    intro none
    have flat := readGroups_flatten (readAddresses b first wanted)
    rw [none] at flat
    have wanted_zero : wanted = 0 := by simpa [readAddresses] using flat
    omega
  obtain ⟨group, later, groups⟩ := List.exists_cons_of_ne_nil addresses
  obtain ⟨same, chain⟩ := readGroups_spec (readAddresses b first wanted)
  have run := (run ready).trans (if_pos fit)
  refine ⟨group, later, ?flat, ?each, ?apart, ?exec⟩
  case flat => rw [← groups, readGroups_flatten, readAddresses]
  case each =>
    rw [← groups]
    exact fun g hg => ⟨readGroups_ne_nil _ g hg, same g hg⟩
  case apart =>
    intro before g h after split
    rw [groups, split, List.isChain_append_cons_cons] at chain
    exact chain.2.1
  case exec =>
    have run : runReadTrace p u =
        (issueRead u group, .working (.read (group :: later) [] (decide (wanted < count)) false)) := by
      rw [run, show readGroups _ = group :: later from groups]
      rfl
    exact takeRecord_working headed carried (isCommand_carriedOut carried) run rfl

end Sys2Proof.TraceMemory
end

section
/-! PROOFS. A lane's replay queue: its completed fetches, patch truncation and the cut at DRAIN (R56, R57, R63,
R65). -/

namespace Sys2Proof.Replay

open Sys2Proof.Machine

/-! ## Completed fetches (R56, R57) -/

theorem fetchVoided_of_fetch {x : Lane} {f : Fetch} (h : x.fetch = some f) : x.fetchVoided = f.voided := by
  simp only [Lane.fetchVoided, h]

theorem placeFetch_of_fetch {x : Lane} {f : Fetch} (m : Memory) (h : x.fetch = some f) :
    x.placeFetch m =
      { x with queue := x.queue ++ f.words.map fun w => ⟨m.read w.address, w⟩, fetch := none } := by
  simp only [Lane.placeFetch, h]

theorem exec_fetchComplete {s : State} {l : LaneId} {g : GroupId} {a : Access}
    (flight : inFlight s (.lane l) = some (g, a)) (live : (s.lane l).fetchVoided = false) :
    let t := completeAccess s g a
    exec (.fetchComplete l) s = .next (t.setLane l ((s.lane l).placeFetch t.mem)) := by
  simp only [exec, execFetchComplete, flight, live, whenPossible_of, Bool.not_false, State.modLane,
    completeAccess_lane]

theorem exec_voidedFetchComplete {s : State} {l : LaneId} {g : GroupId} {a : Access}
    (flight : inFlight s (.lane l) = some (g, a)) (voided : (s.lane l).fetchVoided = true) :
    exec (.voidedFetchComplete l) s = .next ((completeAccess s g a).setLane l (s.lane l).dropFetch) := by
  simp only [exec, execVoidedFetchComplete, flight, voided, whenPossible_of, State.modLane,
    completeAccess_lane]

/-- Settles O28. The access in flight is the lane's only one, and its completion leaves the lane's record. -/
theorem fetchCompletesOnce : Obligations.FetchCompletesOnce := by
  intro l s g a f access requester only fetch t
  have flight := inFlight_of access requester only
  have voided := fetchVoided_of_fetch fetch
  refine ⟨fun live => ?_, fun dropped => ?_⟩
  · rw [exec_fetchComplete flight (voided.trans live), placeFetch_of_fetch _ fetch]
  · exact exec_voidedFetchComplete flight (voided.trans dropped)

/-! ## Patch truncation (R63) -/

section Truncate

variable {x : Lane} {written : List Nat}

/-- A queue none of whose words is written is kept to its end. -/
theorem drop_unwritten (clear : ∀ q ∈ x.queue, q.place.address ∉ written) :
    x.queue.drop (x.queue.takeWhile fun q => !written.contains q.place.address).length = [] := by
  have kept : (x.queue.takeWhile fun q => !written.contains q.place.address) = x.queue :=
    List.takeWhile_eq_self_iff.2 fun q hq => by simpa using clear q hq
  rw [kept, List.drop_length]

theorem truncate_queued {before after : List QueueWord} {q : QueueWord} (split : x.queue = before ++ q :: after)
    (hit : q.place.address ∈ written) (clear : ∀ w ∈ before, w.place.address ∉ written) :
    x.truncate written = { x.voidFetch with queue := before, fetchPos := .at q.place.position } := by
  have kept : (x.queue.takeWhile fun q => !written.contains q.place.address) = before := by
    rw [split, List.takeWhile_append_of_pos fun w hw => by simpa using clear w hw,
      List.takeWhile_cons_of_neg (by simpa using hit), List.append_nil]
  have cut : x.queue.drop before.length = q :: after := by rw [split, List.drop_left]
  simp only [Lane.truncate, kept, cut]

theorem truncate_fetched {w : FetchWord} {rest : List FetchWord}
    (clear : ∀ q ∈ x.queue, q.place.address ∉ written) (live : x.liveFetchWords = w :: rest)
    (hit : ∃ v ∈ w :: rest, v.address ∈ written) :
    x.truncate written = { x.voidFetch with fetchPos := .at w.position } := by
  have holds : ((w :: rest).any fun v => written.contains v.address) = true := by
    simpa only [List.any_eq_true, List.contains_iff_mem] using hit
  simp only [Lane.truncate, drop_unwritten clear, live, holds, if_true]

theorem truncate_unwritten (queued : ∀ q ∈ x.queue, q.place.address ∉ written)
    (fetched : ∀ w ∈ x.liveFetchWords, w.address ∉ written) : x.truncate written = x := by
  simp only [Lane.truncate, drop_unwritten queued]
  split
  · next w rest live =>
    rw [live] at fetched
    have none : ¬((w :: rest).any fun v => written.contains v.address) = true := by
      simpa only [List.any_eq_true, List.contains_iff_mem, not_exists, not_and] using fetched
    exact if_neg none
  · rfl

end Truncate

/-! ## The cut at DRAIN (R65) -/

theorem throughEndOfPass_ends {before after : List QueueWord} {q : QueueWord} (ends : q.place.endOfPass = true)
    (within : ∀ w ∈ before, w.place.endOfPass = false) :
    throughEndOfPass (before ++ q :: after) = some (before ++ [q]) := by
  induction before with
  | nil => simp [throughEndOfPass, ends]
  | cons w before ih =>
    obtain ⟨first, later⟩ := List.forall_mem_cons.1 within
    simp [throughEndOfPass, first, ih later]

theorem throughEndOfPass_none {queue : List QueueWord} (within : ∀ q ∈ queue, q.place.endOfPass = false) :
    throughEndOfPass queue = none := by
  induction queue with
  | nil => rfl
  | cons q queue ih =>
    obtain ⟨first, later⟩ := List.forall_mem_cons.1 within
    simp [throughEndOfPass, first, ih later]

theorem drain_queued {x : Lane} {before after : List QueueWord} {q : QueueWord}
    (split : x.queue = before ++ q :: after) (ends : q.place.endOfPass = true)
    (within : ∀ w ∈ before, w.place.endOfPass = false) :
    x.drain = { x.voidFetch with queue := before ++ [q], fetchPos := .ended, state := .draining } := by
  simp only [Lane.drain, split, throughEndOfPass_ends ends within]

/-- Where the queue does not hold the end of the pass, the fetch in flight decides whether it is still to be
fetched. -/
theorem drain_unqueued {x : Lane} (within : ∀ q ∈ x.queue, q.place.endOfPass = false) :
    x.drain =
      if ∃ w ∈ x.liveFetchWords, w.endOfPass = true then { x with state := .draining, fetchPos := .ended }
      else { x with state := .draining } := by
  simp only [Lane.drain, throughEndOfPass_none within, List.any_eq_true]

/-- Settles O46: each clause is one branch of the truncation or of the drain. -/
theorem replayQueueIsCut : Obligations.ReplayQueueIsCut := by
  refine ⟨fun x written => ⟨?queued, fun clear => ⟨?fetched, ?unwritten⟩⟩,
    fun x => ⟨?ends, fun within => ⟨?ending, ?later⟩⟩⟩
  case queued => exact fun before q after => truncate_queued
  case fetched => exact fun w rest => truncate_fetched clear
  case unwritten => exact truncate_unwritten clear
  case ends => exact fun before q after => drain_queued
  case ending => exact fun ends => (drain_unqueued within).trans (if_pos ends)
  case later =>
    intro later
    have none : ¬∃ w ∈ x.liveFetchWords, w.endOfPass = true := by simpa using later
    exact (drain_unqueued within).trans (if_neg none)

end Sys2Proof.Replay
end

section
/-! PROOFS. SET_PLAYLIST: the layout of an entry, its checks, and the replacement of the playlist (R45, R46, R190). -/

namespace Sys2Proof.Playlist

open Sys2Proof.Machine

/-! ## The words of an entry (R190) -/

/-- END from its code, in a playlist of `n` entries. -/
def endOf (n code : Nat) : Option EntryEnd :=
  if code < 16 then (if code < n then some (.loop code) else none)
  else if code = 16 then some .next
  else if code = 17 then some .stop
  else none

/-- The code of END. -/
def endCode : EntryEnd → Nat
  | .next => 16
  | .loop k => k
  | .stop => 17

/-- The code of DIRECTION. -/
def directionCode : Direction → Nat
  | .forward => 0
  | .reverse => 1

theorem endOf_none_iff (n code : Nat) : endOf n code = none ↔ 17 < code ∨ (code < 16 ∧ n ≤ code) := by
  unfold endOf
  split_ifs <;> simp <;> omega

/-- A LOOP that names an entry of the playlist, by a number that fits its field. -/
def LoopFits (n : Nat) (e : EntryEnd) : Prop := ∀ k, e = .loop k → k < n ∧ k < 16

theorem endOf_endCode {n : Nat} {e : EntryEnd} (h : LoopFits n e) : endOf n (endCode e) = some e := by
  cases e with
  | next => rfl
  | stop => rfl
  | loop k =>
    obtain ⟨named, fits⟩ := h k rfl
    simp [endOf, endCode, named, fits]

theorem endCode_le {n : Nat} {e : EntryEnd} (h : LoopFits n e) : endCode e ≤ 17 := by
  cases e with
  | next => decide
  | stop => decide
  | loop k =>
    obtain ⟨-, fits⟩ := h k rfl
    exact Nat.le_of_lt (Nat.lt_trans fits (by decide))

theorem directionCode_lt (d : Direction) : directionCode d < 2 := by cases d <;> decide

theorem direction_of_code (d : Direction) : (if directionCode d = 0 then Direction.forward else .reverse) = d := by
  cases d <;> rfl

theorem field_lt (w : Word) (lo len : Nat) : field w lo len < 2 ^ len := Nat.mod_lt _ (Nat.two_pow_pos len)

/-- A field that ends at bit 31 is all that stands above its lowest bit. -/
theorem field_top (w : Word) {lo len : Nat} (h : lo + len = 32) : field w lo len = w.toNat / 2 ^ lo := by
  refine Nat.mod_eq_of_lt (Nat.div_lt_of_lt_mul ?_)
  rw [← pow_add, h]
  exact w.isLt

theorem field_bottom (w : Word) (len : Nat) : field w 0 len = w.toNat % 2 ^ len := by
  simp [field, bitsAt]

/-- The entry that the fields of three words describe, but for END. -/
def entryOf (a b c : Word) (ending : EntryEnd) : PlaylistEntry where
  block := ⟨field c 16 7, field_lt c 16 7⟩
  column := field c 23 4
  firstRow := field a 0 29
  lastRow := field b 0 29
  direction := if field a 29 1 = 0 then .forward else .reverse
  step := field a 30 2 * 8 + field b 29 3
  passes := field c 0 16
  ending := ending

/-- The rows of an entry are in order, and its STEP is one of 1 to 16. -/
def inRange (e : PlaylistEntry) : Bool := decide (e.firstRow ≤ e.lastRow ∧ 1 ≤ e.step ∧ e.step ≤ 16)

theorem decodeEntry_eq (n : Nat) (a b c : Word) :
    decodeEntry n a b c = ((endOf n (field c 27 5)).map (entryOf a b c)).filter inRange := by
  have block : toFin? (field c 16 7) 128 = some ⟨field c 16 7, field_lt c 16 7⟩ := toFin?_val _ rfl
  cases ending : endOf n (field c 27 5) with
  | none =>
    simp only [endOf] at ending
    simp only [decodeEntry, ending, Option.map_none, Option.filter_none]
  | some e =>
    simp only [endOf] at ending
    simp only [decodeEntry, ending, block, Option.map_some, Option.filter_some, inRange, decide_eq_true_eq]
    rfl

/-- An entry's words fail for END, for STEP or for the order of its rows. -/
theorem decodeEntry_none_iff (n : Nat) (a b c : Word) :
    decodeEntry n a b c = none ↔ endOf n (field c 27 5) = none ∨
      ¬(field a 0 29 ≤ field b 0 29 ∧ 1 ≤ field a 30 2 * 8 + field b 29 3 ∧
        field a 30 2 * 8 + field b 29 3 ≤ 16) := by
  rw [decodeEntry_eq]
  cases endOf n (field c 27 5) <;> simp [inRange, entryOf]

/-- The first word of an entry: FIRST_ROW, DIRECTION and the upper bits of STEP. -/
def firstWord (e : PlaylistEntry) : Word :=
  BitVec.ofNat 32 (e.firstRow + directionCode e.direction * 2 ^ 29 + e.step / 8 * 2 ^ 30)

/-- The second word: LAST_ROW and the lower bits of STEP. -/
def secondWord (e : PlaylistEntry) : Word := BitVec.ofNat 32 (e.lastRow + e.step % 8 * 2 ^ 29)

/-- The third word: PASSES, the block, the column and END. -/
def thirdWord (e : PlaylistEntry) : Word :=
  BitVec.ofNat 32 (e.passes + e.block.val * 2 ^ 16 + e.column * 2 ^ 23 + endCode e.ending * 2 ^ 27)

section Layout

variable {e : PlaylistEntry}

theorem fields_firstWord (row : e.firstRow < 2 ^ 29) (step : e.step ≤ 16) :
    field (firstWord e) 0 29 = e.firstRow ∧ field (firstWord e) 29 1 = directionCode e.direction ∧
      field (firstWord e) 30 2 = e.step / 8 := by
  have direction := directionCode_lt e.direction
  simp only [field, bitsAt, firstWord, BitVec.toNat_ofNat]
  omega

theorem fields_secondWord (row : e.lastRow < 2 ^ 29) :
    field (secondWord e) 0 29 = e.lastRow ∧ field (secondWord e) 29 3 = e.step % 8 := by
  simp only [field, bitsAt, secondWord, BitVec.toNat_ofNat]
  omega

theorem fields_thirdWord (passes : e.passes < 65536) (column : e.column < 16) (ending : endCode e.ending ≤ 17) :
    field (thirdWord e) 0 16 = e.passes ∧ field (thirdWord e) 16 7 = e.block.val ∧
      field (thirdWord e) 23 4 = e.column ∧ field (thirdWord e) 27 5 = endCode e.ending := by
  have block := e.block.isLt
  simp only [field, bitsAt, thirdWord, BitVec.toNat_ofNat]
  omega

/-- An entry in range is read back from its words. -/
theorem decodeEntry_words {n : Nat} (column : e.column < 16) (rows : e.firstRow ≤ e.lastRow)
    (row : e.lastRow < 2 ^ 29) (step_pos : 1 ≤ e.step) (step_le : e.step ≤ 16) (passes : e.passes < 65536)
    (loop : LoopFits n e.ending) :
    decodeEntry n (firstWord e) (secondWord e) (thirdWord e) = some e := by
  obtain ⟨firstRow, direction, stepHigh⟩ := fields_firstWord (Nat.lt_of_le_of_lt rows row) step_le
  obtain ⟨lastRow, stepLow⟩ := fields_secondWord row
  obtain ⟨passes, block, column, code⟩ := fields_thirdWord passes column (endCode_le loop)
  have step : e.step / 8 * 8 + e.step % 8 = e.step := Nat.div_add_mod' _ _
  have same : entryOf (firstWord e) (secondWord e) (thirdWord e) e.ending = e := by
    simp only [entryOf, firstRow, direction, stepHigh, lastRow, stepLow, passes, block, column, step,
      direction_of_code]
  have ranges : inRange e = true := decide_eq_true ⟨rows, step_pos, step_le⟩
  rw [decodeEntry_eq, code, endOf_endCode loop, Option.map_some, same, Option.filter_some, if_pos ranges]

end Layout

/-! ## The entries of a payload (R46) -/

/-- The words of the entry with number `k`. -/
def wordsAt (payload : List Word) (k : Nat) : Word × Word × Word :=
  (payload.getD (3 * k) 0, payload.getD (3 * k + 1) 0, payload.getD (3 * k + 2) 0)

theorem entryWords_eq (payload : List Word) :
    entryWords payload = (List.range (payload.length / 3)).map (wordsAt payload) := by
  induction payload using entryWords.induct with
  | case1 a b c rest ih =>
    have count : (a :: b :: c :: rest).length / 3 = rest.length / 3 + 1 := by
      simp only [List.length_cons]
      omega
    rw [entryWords, ih, count, List.range_succ_eq_map, List.map_cons, List.map_map]
    rfl
  | case2 payload short =>
    have none : payload.length / 3 = 0 := by
      match payload, short with
      | [], _ | [_], _ | [_, _], _ => simp
      | a :: b :: c :: rest, short => exact absurd rfl (short a b c rest)
    rw [entryWords, none]
    · rfl
    · exact short

section Entries

variable {u : State} {n : Nat}

theorem checkEntry_eq_some {w : Word × Word × Word} {e : PlaylistEntry} :
    checkEntry u n w = some e ↔ decodeEntry n w.1 w.2.1 w.2.2 = some e ∧
      ((u.block e.block).state = .vacant ∨
        (e.column < (u.block e.block).columns ∧ e.lastRow < (u.block e.block).rows)) := by
  unfold checkEntry
  cases decodeEntry n w.1 w.2.1 w.2.2 with
  | none => simp
  | some d =>
    simp only [Bool.or_eq_true, Bool.and_eq_true, decide_eq_true_eq, Option.some.injEq]
    constructor
    · intro h
      split at h
      · next fits =>
        cases h
        exact ⟨rfl, fits⟩
      · cases h
    · rintro ⟨rfl, fits⟩
      exact if_pos fits

/-- Entries that all pass are taken, in their order. -/
theorem checkEntries_ok {ws : List (Word × Word × Word)} {es : List PlaylistEntry}
    (h : List.Forall₂ (fun w e => checkEntry u n w = some e) ws es) (k : Nat) :
    checkEntries u n k ws = .ok es := by
  induction h generalizing k with
  | nil => rfl
  | cons first _ ih => simp only [checkEntries, first, ih]

/-- The first entry that fails is named by its number. -/
theorem checkEntries_error {before after : List (Word × Word × Word)} {w : Word × Word × Word}
    (pass : ∀ v ∈ before, ∃ e, checkEntry u n v = some e) (fails : checkEntry u n w = none) (k : Nat) :
    checkEntries u n k (before ++ w :: after) = .error (k + before.length) := by
  induction before generalizing k with
  | nil => simp only [List.nil_append, checkEntries, fails, List.length_nil, Nat.add_zero]
  | cons v before ih =>
    obtain ⟨⟨e, first⟩, later⟩ := List.forall_mem_cons.1 pass
    simp only [List.cons_append, checkEntries, first, ih later, List.length_cons]
    congr 1
    omega

end Entries

/-! ## SET_PLAYLIST (R46) -/

/-- The checks of a record's entries, on the words of its payload. -/
def checkPayload (u : State) (payload : List Word) : Except Nat (List PlaylistEntry) :=
  checkEntries u (payload.length / 3) 0 ((List.range (payload.length / 3)).map (wordsAt payload))

theorem checkPayload_ok {u : State} {payload : List Word} {es : List PlaylistEntry}
    (length : es.length = payload.length / 3)
    (pass : ∀ k e, es[k]? = some e → checkEntry u (payload.length / 3) (wordsAt payload k) = some e) :
    checkPayload u payload = .ok es := by
  refine checkEntries_ok (List.forall₂_iff_get.2 ⟨by simp [length], fun k _ hk => ?_⟩) 0
  simpa using pass k _ (List.getElem?_eq_getElem hk)

theorem checkPayload_error {u : State} {payload : List Word} {k : Nat} (hk : k < payload.length / 3)
    (pass : ∀ j < k, ∃ e, checkEntry u (payload.length / 3) (wordsAt payload j) = some e)
    (fails : checkEntry u (payload.length / 3) (wordsAt payload k) = none) :
    checkPayload u payload = .error k := by
  obtain ⟨more, total⟩ : ∃ more, payload.length / 3 = k + (more + 1) := ⟨payload.length / 3 - k - 1, by omega⟩
  have split : (List.range (payload.length / 3)).map (wordsAt payload) =
      (List.range k).map (wordsAt payload) ++ wordsAt payload k ::
        (List.range more).map fun i => wordsAt payload (k + (i + 1)) := by
    rw [total, List.range_add, List.range_succ_eq_map]
    simp [Function.comp_def]
  have before : ∀ v ∈ (List.range k).map (wordsAt payload),
      ∃ e, checkEntry u (payload.length / 3) v = some e := by
    simpa using pass
  rw [checkPayload, split, checkEntries_error before fails]
  simp

/-- What is done to an OFF lane by the checks of the entries (R46). -/
def judgedPlaylist (u : State) (l : LaneId) : Except Nat (List PlaylistEntry) → State × Answer
  | .ok es => (u.setLane l { u.lane l with playlist := es.map fun e => ⟨e, true⟩ }, .reply .done [])
  | .error k => (u, .reply .badValue [BitVec.ofNat 32 k])

theorem runSetPlaylist_badLength {p : Place} {l : LaneId} (u : State) (index : p.index = l.val)
    (h : p.payload.length % 3 ≠ 0 ∨ 48 < p.payload.length) : runSetPlaylist p u = (u, .reply .badLength []) := by
  simp only [runSetPlaylist, toFin?_val l index, h, if_true, refusedWith]

/-- A payload of whole entries is judged by the state of the lane and then by its entries. -/
theorem runSetPlaylist_whole {p : Place} {l : LaneId} (u : State) (index : p.index = l.val)
    (whole : p.payload.length % 3 = 0) (short : p.payload.length ≤ 48) :
    runSetPlaylist p u =
      if (u.lane l).state = .off then judgedPlaylist u l (checkPayload u p.payload)
      else (u, .reply .laneBusy []) := by
  have length : ¬(p.payload.length % 3 ≠ 0 ∨ 48 < p.payload.length) := by omega
  simp only [runSetPlaylist, toFin?_val l index, length, if_false, entryWords_eq, List.length_map,
    List.length_range, refusedWith, checkPayload]
  cases checkEntries u (p.payload.length / 3) 0 ((List.range (p.payload.length / 3)).map (wordsAt p.payload)) <;>
    rfl

/-- Settles O43. The row's entries are judged one by one from the words of the payload. -/
theorem playlistIsReplacedWhole : Obligations.PlaylistIsReplacedWhole := by
  refine ⟨?layout, ?failing, ?command⟩
  case layout =>
    intro n e column rows row step_pos step_le passes loop direction ending
    have directionIs : direction = directionCode e.direction := rfl
    have endingIs : ending = endCode e.ending := rfl
    rw [directionIs, endingIs]
    exact decodeEntry_words column rows row step_pos step_le passes loop
  case failing =>
    intro n a b c ending step
    rw [decodeEntry_none_iff, endOf_none_iff, field_top (lo := 27) c rfl,
      field_top (lo := 30) a rfl, field_top (lo := 29) b rfl, field_bottom,
      field_bottom]
    omega
  case command =>
    intro s p rest headed carried u answer entry passes
    have answers {v : State} {st : Status} {w : List Word} (run : runSetPlaylist p u = (v, .reply st w))
        (cmd : v.cmd = u.cmd) : exec .setPlaylist s = answer v st w :=
      takeRecord_reply headed carried (isCommand_carriedOut carried) run (congrArg _ cmd)
    have passes_iff (k : Nat) (e : PlaylistEntry) :
        passes k e ↔ checkEntry u (p.payload.length / 3) (wordsAt p.payload k) = some e :=
      (checkEntry_eq_some (u := u) (w := wordsAt p.payload k)).symm
    refine ⟨fun high => ?_, fun l index => ⟨fun length => ?_, fun whole short => ?_⟩⟩
    · exact answers (by simp only [runSetPlaylist, toFin?_none high, refusedWith]) rfl
    · exact answers (runSetPlaylist_badLength u index length) rfl
    have run := runSetPlaylist_whole u index whole short
    refine ⟨fun busy => answers (run.trans (if_neg busy)) rfl, fun off => ?_⟩
    rw [if_pos off] at run
    refine ⟨fun es length pass => ?_, fun k hk fails pass => ?_⟩
    · have taken := checkPayload_ok length fun k e h => (passes_iff k e).1 (pass k e h)
      exact answers (run.trans (congrArg _ taken)) rfl
    · have failed := checkPayload_error hk (fun j hj => (pass j hj).imp fun e => (passes_iff j e).1)
        (Option.eq_none_iff_forall_ne_some.2 fun e h => fails e ((passes_iff k e).2 h))
      exact answers (run.trans (congrArg _ failed)) rfl

end Sys2Proof.Playlist
end


section
/-! PROOFS. The curve stage: offset codes, interpolation within a segment, and its two points (R74 to R77, R79). -/

namespace Sys2Proof.Conversion

open Sys2Proof.Machine

/-! ## Offset codes (R74) -/

theorem offsetCode_le {e : Int} (high : e ≤ 8388607) : offsetCode e ≤ 16777215 := by
  unfold offsetCode
  omega

theorem plainCode_toNat {e : Int} (high : e ≤ 8388607) : (plainCode e).toNat = offsetCode e / 16 := by
  have bound := offsetCode_le high
  rw [plainCode, BitVec.toNat_ofNat]
  exact Nat.mod_eq_of_lt (by omega)

/-! ## Interpolation (R75) -/

/-- The rise from P[k] at a fraction of the segment, to the nearest step, an exact half upward. -/
def rise (p q : Int) (f : Nat) : Int := ((q - p) * f + 131072) / 262144

theorem rise_zero (p q : Int) : rise p q 0 = 0 := by
  unfold rise
  omega

/-- A part of a segment rises no further than the segment, and in its direction. -/
theorem rise_between (p q : Int) {f : Nat} (part : f < 262144) :
    min p q ≤ p + rise p q f ∧ p + rise p q f ≤ max p q := by
  have part : (f : Int) ≤ 262143 := by omega
  have start : (0 : Int) ≤ f := by omega
  unfold rise
  rcases le_total 0 (q - p) with up | down
  · have low := mul_nonneg up start
    have high := mul_le_mul_of_nonneg_left part up
    omega
  · have low := mul_le_mul_of_nonpos_left part down
    have high := mul_nonpos_of_nonpos_of_nonneg down start
    omega

theorem interpolate_toNat (low high : OutCode) {f : Nat} (part : f < 262144) :
    ((interpolate low high f).toNat : Int) = low.toNat + rise low.toNat high.toNat f := by
  have between := rise_between low.toNat high.toNat part
  have lowBound := low.isLt
  have highBound := high.isLt
  rw [interpolate, BitVec.toNat_ofInt]
  unfold rise at *
  omega

/-! ## The two points of a segment (R75, R77, R79) -/

theorem point_setPoint (s : State) (c d : CurveId) (k j : PointId) (x : CurvePoint) :
    (s.setPoint c k x).point d j = if c = d ∧ k = j then x else s.point d j := by
  by_cases same : c = d
  · subst same
    simp [State.point, State.setPoint, Vector.getElem_set, Fin.ext_iff]
  · have other : c.val ≠ d.val := fun h => same (Fin.ext h)
    simp [State.point, State.setPoint, same, other]

/-- The segment that a number of 0 to 63 names. -/
theorem segmentOf_eq {e : Int} {k : Fin 64} (h : k.val = offsetCode e / 262144) : segmentOf e = k := by
  unfold segmentOf
  rw [← h]
  exact Fin.ofNat_val_eq_self k

section Segment

variable {s later : State} {c : CurveId} {e : Int} {k : Fin 64}

theorem curveStageOver_lowFails (segment : segmentOf e = k) (low : (s.point c k.castSucc).codeOk = false) :
    curveStageOver s later (some c) e = .fails c k.val := by
  simp [curveStageOver, segment, low]

theorem curveStageOver_highFails (segment : segmentOf e = k) (low : (s.point c k.castSucc).codeOk = true)
    (high : (later.point c k.succ).codeOk = false) :
    curveStageOver s later (some c) e = .fails c (k.val + 1) := by
  simp [curveStageOver, segment, low, high]

theorem curveStageOver_code (segment : segmentOf e = k) (low : (s.point c k.castSucc).codeOk = true)
    (high : (later.point c k.succ).codeOk = true) :
    curveStageOver s later (some c) e =
      .code (interpolate (s.point c k.castSucc).value (later.point c k.succ).value (fractionOf e)) := by
  simp [curveStageOver, segment, low, high]

/-- The upper point read later is all that a tick sees of the later curve. -/
theorem curveStageOver_eq_setPoint (segment : segmentOf e = k) :
    curveStageOver s later (some c) e =
      curveStage (s.setPoint c k.succ (later.point c k.succ)) (some c) e := by
  have below : k.succ ≠ k.castSucc := Fin.castSucc_lt_succ.ne'
  simp [curveStage, curveStageOver, segment, point_setPoint, below]

end Segment

/-- Settles O58. A code is in one segment, at a fraction below its whole width. -/
theorem curveStageIsExact : Obligations.CurveStageIsExact := by
  intro s e least greatest u
  refine ⟨offsetCode_le greatest, fun middle => ?_, ⟨_, rfl, plainCode_toNat greatest, ?_⟩,
    fun c k segment => ?_⟩
  · subst middle
    exact ⟨_, rfl, by decide⟩
  · have bound := offsetCode_le greatest
    rw [plainCode_toNat greatest]
    omega
  intro low high p q f
  have segment := segmentOf_eq segment
  have part : fractionOf e < 262144 := Nat.mod_lt _ (by decide)
  refine ⟨curveStageOver_lowFails segment, curveStageOver_highFails segment, fun lowOk highOk => ?_,
    fun later => curveStageOver_eq_setPoint segment⟩
  have value : _ = p + rise p q (fractionOf e) := interpolate_toNat low.value high.value part
  obtain ⟨above, below⟩ := rise_between p q part
  refine ⟨_, curveStageOver_code segment lowOk highOk, ?_, value ▸ above, value ▸ below, fun start => ?_⟩
  · rw [value, rise, Int.fdiv_eq_ediv_of_nonneg _ (by decide)]
    rfl
  · have atPoint : fractionOf e = 0 := Int.ofNat_eq_zero.1 start
    rw [value, atPoint, rise_zero, add_zero]

end Sys2Proof.Conversion
end


section
/-! PROOFS. The VALUE actions: sat(), the exact results, the range of every result, and the generators
(R70, R71, R106, R117 to R121). -/

namespace Sys2Proof.Conversion

open Sys2Proof.Machine

/-! ## sat() (R71, R72) -/

theorem sat_inRange (x : Int) : -8388608 ≤ sat x ∧ sat x ≤ 8388607 := by
  unfold sat codeMin codeMax
  omega

theorem sat_of_inRange {x : Int} (least : -8388608 ≤ x) (greatest : x ≤ 8388607) : sat x = x := by
  unfold sat codeMin codeMax
  omega

theorem sat_ne_iff (x : Int) : sat x ≠ x ↔ x < -8388608 ∨ 8388607 < x := by
  unfold sat codeMin codeMax
  omega

/-- A result is saturated where its sum lies outside the range. -/
theorem satResult_eq (x : Int) (noise : BitVec 23) (ramp : Int) :
    satResult x noise ramp = ⟨sat x, decide (x < -8388608 ∨ 8388607 < x), noise, ramp⟩ := by
  have clamped : (sat x != x) = decide (x < -8388608 ∨ 8388607 < x) := by
    rw [Bool.eq_iff_iff, bne_iff_ne, decide_eq_true_iff]
    exact sat_ne_iff x
  rw [satResult, clamped]

theorem satResult_of_inRange {x : Int} (least : -8388608 ≤ x) (greatest : x ≤ 8388607) (noise : BitVec 23)
    (ramp : Int) : satResult x noise ramp = ⟨x, false, noise, ramp⟩ := by
  simp [satResult, sat_of_inRange least greatest]

/-! ## Generators (R106, R118, R119) -/

/-- GAIN's product is rounded to the nearest multiple, an exact half away from zero. -/
theorem gainQuotient_nearest (q : Int) :
    2 * |4096 * gainQuotient q - q| ≤ 4096 ∧
      (2 * |4096 * gainQuotient q - q| = 4096 → |q| < |4096 * gainQuotient q|) := by
  by_cases sign : 0 ≤ q
  · simp only [gainQuotient, if_pos sign, abs_eq_max_neg]
    omega
  · simp only [gainQuotient, if_neg sign, abs_eq_max_neg]
    omega

theorem flagBit_bne (a b : Bool) : flagBit (a != b) = if a = b then 0 else 1 := by
  cases a <;> cases b <;> rfl

theorem flagBit_eq_toNat (b : Bool) : flagBit b = b.toNat := by cases b <;> rfl

theorem noiseStep_eq (n : BitVec 23) :
    noiseStep n = BitVec.ofNat 23 (2 * n.toNat + if n.getLsbD 22 = n.getLsbD 17 then 0 else 1) := by
  rw [noiseStep, flagBit_bne]

theorem gateStep_eq (g : BitVec 16) :
    gateStep g = BitVec.ofNat 16
      (2 * g.toNat + (g.getLsbD 15 ^^ g.getLsbD 13 ^^ g.getLsbD 12 ^^ g.getLsbD 10).toNat) := by
  rw [gateStep, flagBit_eq_toNat]
  simp only [Bool.bne_eq_xor, Bool.xor_assoc]

/-! ## CLAMP and INVERT (R121) -/

theorem signedField_inRange (w : Word) : -8388608 ≤ signedField w ∧ signedField w ≤ 8388607 := by
  unfold signedField
  have least := (BitVec.ofNat 24 w.toNat).le_toInt
  have greatest := (BitVec.ofNat 24 w.toNat).toInt_lt
  omega

theorem decodeAction_clamp {a b c : Word} {lo hi : Int} (h : decodeAction 5 a b c = some (.clamp lo hi)) :
    lo ≤ hi ∧ -8388608 ≤ lo ∧ hi ≤ 8388607 := by
  simp only [decodeAction] at h
  split at h
  · next ordered =>
    cases h
    exact ⟨ordered, (signedField_inRange a).1, (signedField_inRange b).2⟩
  · cases h

theorem codeFits_iff (v : Int) : codeFits v = true ↔ -8388608 ≤ v ∧ v ≤ 8388607 := by
  simp [codeFits]

/-- Bounds that are engineering codes hold a code between them in range, in whatever order they stand. -/
theorem clamp_inRange {e lo hi : Int} (lowLeast : -8388608 ≤ lo) (highLeast : -8388608 ≤ hi)
    (greatest : hi ≤ 8388607) : -8388608 ≤ min (max e lo) hi ∧ min (max e lo) hi ≤ 8388607 := by
  omega

/-- Every result is an engineering code (R71). -/
theorem valueAction_inRange {a : Action} {e : Int} (noise : BitVec 23) (ramp : Int) (fits : a.fits = true)
    (least : -8388608 ≤ e) (greatest : e ≤ 8388607) :
    -8388608 ≤ (valueAction a e noise ramp).e ∧ (valueAction a e noise ramp).e ≤ 8388607 := by
  cases a with
  | stuck v => exact (codeFits_iff v).1 fits
  | offset d => exact sat_inRange _
  | gain g d => exact sat_inRange _
  | noise amp seed => exact sat_inRange _
  | ramp step limit => exact sat_inRange _
  | invert => exact sat_inRange _
  | clamp lo hi =>
    simp only [Action.fits, Bool.and_eq_true, codeFits_iff] at fits
    obtain ⟨⟨lowLeast, -⟩, highLeast, greatest⟩ := fits
    exact clamp_inRange lowLeast highLeast greatest
  | _ => exact ⟨least, greatest⟩

theorem invert_eq {e : Int} (noise : BitVec 23) (ramp : Int) (above : -8388608 < e) (greatest : e ≤ 8388607) :
    valueAction .invert e noise ramp = ⟨-e, false, noise, ramp⟩ :=
  satResult_of_inRange (by omega) (by omega) noise ramp

theorem clamp_same (e lo : Int) (noise : BitVec 23) (ramp : Int) :
    valueAction (.clamp lo lo) e noise ramp = valueAction (.stuck lo) e noise ramp := by
  have held : min (max e lo) lo = lo := min_eq_right (le_max_right e lo)
  simp only [valueAction, held]

/-- Settles O59. Every action but STUCK and CLAMP ends in sat(), which keeps the range. -/
theorem clampAndInvertStayInRange : Obligations.ClampAndInvertStayInRange := by
  refine ⟨?range, ?results, gateStep_eq, fun s e clamped r later => ⟨rfl, rfl⟩⟩
  case range =>
    intro e noise ramp least greatest invert
    refine ⟨fun lo hi low ordered high => ?_, fun a b c lo hi => decodeAction_clamp, fun above => ?_, ?_⟩
    · obtain ⟨atLeast, atMost⟩ := clamp_inRange (e := e) low (low.trans ordered) high
      exact ⟨rfl, atLeast, atMost, clamp_same e lo noise ramp⟩
    · have once : invert e = ⟨-e, false, noise, ramp⟩ := invert_eq noise ramp above greatest
      have twice : invert (-e) = ⟨- -e, false, noise, ramp⟩ := invert_eq noise ramp (by omega) (by omega)
      refine ⟨once, ?_⟩
      rw [once, twice, neg_neg]
    · rintro rfl
      exact ⟨rfl, rfl⟩
  case results =>
    intro e n ramp sat' sum
    have sums (x : Int) (noise : BitVec 23) (acc : Int) : satResult x noise acc = sum x noise acc :=
      satResult_eq x noise acc
    refine ⟨fun v => rfl, fun d => sums _ n ramp, fun g d => ?_, fun a seed => ?_, fun d limit => sums _ n _,
      fun a fits least greatest => valueAction_inRange n ramp fits least greatest⟩
    · exact ⟨_, sums _ n ramp, gainQuotient_nearest _⟩
    · rw [← noiseStep_eq n]
      exact sums _ _ ramp

end Sys2Proof.Conversion
end


section
/-! PROOFS. The points of a curve being loaded: what each replacement writes and what it leaves (R78, R79). -/

namespace Sys2Proof.Conversion

open Sys2Proof.Machine

/-! ## States that differ in their curves only -/

/-- Everything but the Curve Store is the same. -/
def OnlyCurves (s t : State) : Prop := t = { s with curves := t.curves }

theorem OnlyCurves.refl (s : State) : OnlyCurves s s := rfl

theorem OnlyCurves.exists_with {s t : State} (h : OnlyCurves s t) : ∃ cs, t = { s with curves := cs } :=
  ⟨t.curves, h⟩

theorem OnlyCurves.trans {s t u : State} (a : OnlyCurves s t) (b : OnlyCurves t u) : OnlyCurves s u := by
  obtain ⟨_, rfl⟩ := a.exists_with
  obtain ⟨_, rfl⟩ := b.exists_with
  rfl

theorem OnlyCurves.setLane {s t : State} (h : OnlyCurves s t) (l : LaneId) (x : Lane) :
    OnlyCurves (s.setLane l x) (t.setLane l x) := by
  obtain ⟨_, rfl⟩ := h.exists_with
  rfl

theorem OnlyCurves.reach {s t : State} (h : OnlyCurves s t) (time : Nat) :
    OnlyCurves (s.reach time) (t.reach time) := by
  obtain ⟨_, rfl⟩ := h.exists_with
  rfl

theorem OnlyCurves.lane {s t : State} (h : OnlyCurves s t) (l : LaneId) : t.lane l = s.lane l := by
  obtain ⟨_, rfl⟩ := h.exists_with
  rfl

theorem OnlyCurves.rule {s t : State} (h : OnlyCurves s t) (r : RuleId) : t.rule r = s.rule r := by
  obtain ⟨_, rfl⟩ := h.exists_with
  rfl

theorem OnlyCurves.cmd {s t : State} (h : OnlyCurves s t) : t.cmd = s.cmd := by
  obtain ⟨_, rfl⟩ := h.exists_with
  rfl

theorem OnlyCurves.mem {s t : State} (h : OnlyCurves s t) : t.mem = s.mem := by
  obtain ⟨_, rfl⟩ := h.exists_with
  rfl

theorem OnlyCurves.tmc {s t : State} (h : OnlyCurves s t) : t.tmc = s.tmc := by
  obtain ⟨_, rfl⟩ := h.exists_with
  rfl

theorem OnlyCurves.modLane {s t : State} (h : OnlyCurves s t) (l : LaneId) (f : Lane → Lane) :
    OnlyCurves (s.modLane l f) (t.modLane l f) := by
  rw [State.modLane, State.modLane, h.lane l]
  exact h.setLane l _

theorem OnlyCurves.offerTap {s t : State} (h : OnlyCurves s t) (w : Word) :
    OnlyCurves (offerTap s w) (offerTap t w) := by
  obtain ⟨_, rfl⟩ := h.exists_with
  by_cases room : s.ret.taps.length < Config.tapPlaces
  · simp only [OnlyCurves, Sys2Proof.Machine.offerTap, room, if_true]
  · simp only [OnlyCurves, Sys2Proof.Machine.offerTap, room, if_false]

theorem OnlyCurves.handOver {s t : State} (h : OnlyCurves s t) (l : LaneId) (w : HandOver) :
    OnlyCurves (handOver s l w) (handOver t l w) := by
  obtain ⟨_, rfl⟩ := h.exists_with
  have handed := h.modLane l fun x => x.handed s.now w.word
  by_cases tapped : s.ret.tapLanes.contains l = true
  · simp only [Sys2Proof.Machine.handOver, State.modLane_ret, tapped, if_true]
    exact handed.offerTap _
  · simp only [Sys2Proof.Machine.handOver, State.modLane_ret, tapped]
    exact handed

/-- Nothing differs where the curves do not. -/
theorem OnlyCurves.eq_of_curves {s t : State} (h : OnlyCurves s t) (same : t.curves = s.curves) : t = s :=
  Eq.trans h (by rw [same])

theorem curves_ext {s t : State} (h : ∀ d j, s.point d j = t.point d j) : s.curves = t.curves :=
  Vector.ext fun d dBound => Vector.ext fun j jBound => h ⟨d, dBound⟩ ⟨j, jBound⟩

theorem point_of_curves {s t : State} (h : s.curves = t.curves) (d : CurveId) (j : PointId) :
    s.point d j = t.point d j := by
  simp only [State.point, h]

theorem curveStageOver_congr {s t s' t' : State} (low : s.curves = s'.curves) (high : t.curves = t'.curves)
    (curve : Option CurveId) (e : Int) : curveStageOver s t curve e = curveStageOver s' t' curve e := by
  simp only [curveStageOver, point_of_curves low, point_of_curves high]

/-! ## One replacement -/

theorem onlyCurves_replacePoint (c : CurveId) (k : Nat) (w : Word) (s : State) :
    OnlyCurves s (replacePoint c k w s) := by
  unfold replacePoint
  split <;> rfl

theorem newPoint_eq (w : Word) : BitVec.ofNat 20 (field w 0 20) = w.setWidth 20 := by
  apply BitVec.eq_of_toNat_eq
  simp [field, bitsAt]

theorem point_replacePoint_same (c : CurveId) (k : PointId) (w : Word) (s : State) :
    (replacePoint c k.val w s).point c k = ⟨w.setWidth 20, true⟩ := by
  simp only [replacePoint, toFin?_val k rfl, State.point_setPoint_same, newPoint_eq]

theorem point_replacePoint_other {c d : CurveId} {k : Nat} {j : PointId} (w : Word) (s : State)
    (h : d ≠ c ∨ j.val ≠ k) : (replacePoint c k w s).point d j = s.point d j := by
  unfold replacePoint
  split
  · next i named =>
    have number : i.val = k := by
      simp only [toFin?] at named
      split at named
      · cases named
        rfl
      · cases named
    have other : ¬(c = d ∧ i = j) := by
      rintro ⟨rfl, rfl⟩
      simp [number] at h
    rw [point_setPoint, if_neg other]
  · rfl

theorem replacePoint_reach_modLane (c : CurveId) (k : Nat) (w : Word) (s : State) (time : Nat) (l : LaneId)
    (f : Lane → Lane) :
    replacePoint c k w ((s.reach time).modLane l f) = ((replacePoint c k w s).reach time).modLane l f := by
  unfold replacePoint
  split <;> rfl

/-! ## A run of replacements -/

/-- The point is none of those that the values from point `k` on are for. -/
def Untouched (c : CurveId) (k : Nat) (vs : List Word) (d : CurveId) (j : PointId) : Prop :=
  d ≠ c ∨ j.val < k ∨ vs[j.val - k]? = none

/-- In `v` the points of curve `c` from `k` on hold the values, with a new check code, and every other point is
that of `u`. -/
def Written (c : CurveId) (k : Nat) (vs : List Word) (u v : State) : Prop :=
  (∀ (j : PointId) w, k ≤ j.val → vs[j.val - k]? = some w → v.point c j = ⟨w.setWidth 20, true⟩) ∧
    ∀ d j, Untouched c k vs d j → v.point d j = u.point d j

section Run

variable {c : CurveId} {k : Nat}

theorem onlyCurves_replacePoints (vs : List Word) (k : Nat) (s : State) :
    OnlyCurves s (replacePoints c k vs s) := by
  induction vs generalizing k s with
  | nil => exact .refl s
  | cons w rest ih => exact (onlyCurves_replacePoint c k w s).trans (ih (k + 1) _)

theorem replacePoints_reach_modLane (vs : List Word) (k : Nat) (s : State) (time : Nat) (l : LaneId)
    (f : Lane → Lane) :
    replacePoints c k vs ((s.reach time).modLane l f) = ((replacePoints c k vs s).reach time).modLane l f := by
  induction vs generalizing k s with
  | nil => rfl
  | cons w rest ih => rw [replacePoints, replacePoint_reach_modLane, ih, replacePoints]

theorem Untouched.tail {w : Word} {rest : List Word} {d : CurveId} {j : PointId}
    (h : Untouched c k (w :: rest) d j) : Untouched c (k + 1) rest d j ∧ (d ≠ c ∨ j.val ≠ k) := by
  unfold Untouched at *
  rcases h with curve | below | beyond
  · exact ⟨.inl curve, .inl curve⟩
  · exact ⟨.inr (.inl (by omega)), .inr (by omega)⟩
  · rw [List.getElem?_eq_none_iff, List.length_cons] at *
    exact ⟨.inr (.inr (by omega)), .inr (by omega)⟩

theorem written_replacePoints (vs : List Word) (k : Nat) (s : State) :
    Written c k vs s (replacePoints c k vs s) := by
  induction vs generalizing k s with
  | nil => exact ⟨fun j w _ h => by simp at h, fun d j _ => rfl⟩
  | cons x rest ih =>
    obtain ⟨values, others⟩ := ih (k + 1) (replacePoint c k x s)
    refine ⟨fun j w from_k value => ?_, fun d j untouched => ?_⟩
    · rcases Nat.eq_or_lt_of_le from_k with rfl | later
      · have first : x = w := by simpa using value
        subst first
        exact (others c j (.inr (.inl (Nat.lt_succ_self _)))).trans (point_replacePoint_same c j x s)
      · have place : j.val - k = j.val - (k + 1) + 1 := by omega
        rw [place, List.getElem?_cons_succ] at value
        exact values j w later value
    · obtain ⟨inRest, notFirst⟩ := untouched.tail
      exact (others d j inRest).trans (point_replacePoint_other x s notFirst)

/-- What has been written fixes the curves. -/
theorem Written.curves_eq {vs : List Word} {u v w : State} (a : Written c k vs u v) (b : Written c k vs u w) :
    v.curves = w.curves := by
  refine curves_ext fun d j => ?_
  by_cases untouched : Untouched c k vs d j
  · rw [a.2 d j untouched, b.2 d j untouched]
  · simp only [Untouched, not_or, not_not, not_lt, ← Ne.eq_def, Option.ne_none_iff_exists'] at untouched
    obtain ⟨rfl, from_k, x, value⟩ := untouched
    rw [a.1 j x from_k value, b.1 j x from_k value]

theorem Written.of_curves {vs : List Word} {u v w : State} (a : Written c k vs u v) (same : w.curves = v.curves) :
    Written c k vs u w :=
  ⟨fun j x from_k value => (point_of_curves same c j).trans (a.1 j x from_k value),
    fun d j untouched => (point_of_curves same d j).trans (a.2 d j untouched)⟩

/-- What was there before matters only where nothing is written. -/
theorem Written.of_untouched {vs : List Word} {u v w : State} (a : Written c k vs v w)
    (same : ∀ d j, Untouched c k vs d j → v.point d j = u.point d j) : Written c k vs u w :=
  ⟨a.1, fun d j untouched => (a.2 d j untouched).trans (same d j untouched)⟩

theorem Untouched.take {vs : List Word} {d : CurveId} {j : PointId} (h : Untouched c k vs d j) (n : Nat) :
    Untouched c k (vs.take n) d j := by
  refine h.imp_right (Or.imp_right fun beyond => ?_)
  rw [List.getElem?_eq_none_iff] at *
  exact (List.length_take_le' n vs).trans beyond

/-- A point once replaced stays so: writing the first of the values again changes nothing. -/
theorem Written.again {vs : List Word} {m n : Nat} {u v w : State} (a : Written c k (vs.take m) u v)
    (b : Written c k (vs.take n) v w) (fewer : n ≤ m) : Written c k (vs.take m) u w := by
  have prefixed : vs.take n = (vs.take m).take n := by rw [List.take_take, min_eq_left fewer]
  rw [prefixed] at b
  refine ⟨fun j x from_k value => ?_, fun d j untouched => (b.2 d j (untouched.take n)).trans (a.2 d j untouched)⟩
  cases placed : ((vs.take m).take n)[j.val - k]? with
  | none => exact (b.2 c j (.inr (.inr placed))).trans (a.1 j x from_k value)
  | some y =>
    have same : y = x := by
      rw [List.getElem?_take] at placed
      split at placed
      · exact Option.some.inj (placed.symm.trans value)
      · cases placed
    subst same
    exact b.1 j y from_k placed

/-- Further values take the place of those before. -/
theorem Written.further {vs : List Word} {m n : Nat} {u v w : State} (a : Written c k (vs.take m) u v)
    (b : Written c k (vs.take n) v w) (more : m ≤ n) : Written c k (vs.take n) u w := by
  refine b.of_untouched fun d j untouched => a.2 d j ?_
  have prefixed : vs.take m = (vs.take n).take m := by rw [List.take_take, min_eq_left more]
  rw [prefixed]
  exact untouched.take m

/-- Where the first `m` values stand, to write no more than them changes nothing. -/
theorem replacePoints_written {vs : List Word} {m n : Nat} {u s : State} (h : Written c k (vs.take m) u s)
    (fewer : n ≤ m) : replacePoints c k (vs.take n) s = s :=
  (onlyCurves_replacePoints _ k s).eq_of_curves
    ((h.again (written_replacePoints _ k s) fewer).curves_eq h)

end Run

end Sys2Proof.Conversion
end


section
/-! PROOFS. Ticks among the replacements of a curve load that read both their points at one count (R79): they are
ordinary ticks of the part with so many points replaced. -/

namespace Sys2Proof.Conversion

open Sys2Proof.Machine

/-! ## Ticks whose upper point stands as it is -/

/-- The course whose tick reads its upper point as the part has it. -/
def inPlace (c : Course) : Course := { c with upper := id }

/-- The upper point of the course is that of every state with the curves of `s`. -/
def ReadsInPlace (c : Course) (s : State) : Prop := ∀ t, t.curves = s.curves → c.upper t = t

theorem ReadsInPlace.of_curves {c : Course} {s t : State} (h : ReadsInPlace c s) (same : t.curves = s.curves) :
    ReadsInPlace c t :=
  fun u k => h u (k.trans same)

section InPlace

variable {c : Course} {s : State} {l : LaneId}

theorem step4_inPlace (h : ReadsInPlace c s) (gates : List (RuleId × Bool)) (e : Int) :
    step4 c.upper s l gates e = step4 id s l gates e := by
  have frame := (tickFrame_valueStage (applying s gates .value) s e false).trans (tickFrame_modLane _ l
    (Lane.countSaturation (valueStage (applying s gates .value) s e false).2.2))
  unfold step4
  dsimp only [id_eq]
  rw [h _ frame.curves]

theorem lastSteps_inPlace (h : ReadsInPlace c s) (source : Sourced) (gates : List (RuleId × Bool)) :
    lastSteps c s l source gates = lastSteps (inPlace c) s l source gates := by
  unfold lastSteps
  cases source.presented with
  | frozen rules => rfl
  | underrun => rfl
  | code e mark =>
    dsimp only
    rw [step4_inPlace h]
    rfl

theorem laterSteps_inPlace (keeps : c.Keeps EventFrame) (h : ReadsInPlace c s) (source : Sourced) :
    laterSteps c s l source = laterSteps (inPlace c) s l source := by
  have frame2 := (keeps.afterSource s).trans (tickFrame_step2 (c.afterSource s) l source.presented).event
  unfold laterSteps
  dsimp only [inPlace]
  cases second : step2 (c.afterSource s) l source.presented with
  | endedTick t e => rfl
  | goOn t attempted =>
    rw [second] at frame2
    have frame3 := (frame2.trans (keeps.afterTriggers attempted t)).trans
      (tickFrame_step3 (c.afterTriggers attempted t) l).event
    dsimp only
    cases third : step3 (c.afterTriggers attempted t) l with
    | endedTick v e => rfl
    | goOn v gates =>
      rw [third] at frame3
      exact lastSteps_inPlace (h.of_curves frame3.curves) source gates

theorem fullTick_inPlace (keeps : c.Keeps EventFrame) (h : ReadsInPlace c s) :
    fullTick c s l = fullTick (inPlace c) s l := by
  have frame := (((tickFrame_modLane s l Lane.countTickTaken).trans (tickFrame_sourceStage _ l)).event).trans
    (keeps.told _ (sourceStage (s.modLane l Lane.countTickTaken) l).2.error)
  unfold fullTick
  dsimp only
  rw [laterSteps_inPlace keeps (h.of_curves frame.curves)]
  rfl

theorem haltedTick_inPlace (h : ReadsInPlace c s) : haltedTick c s l = haltedTick (inPlace c) s l := by
  have reads (f g : Lane → Lane) : c.upper ((s.modLane l f).modLane l g) = (s.modLane l f).modLane l g := h _ rfl
  unfold haltedTick
  dsimp only [inPlace, id_eq]
  rw [reads]

theorem laneTick_inPlace (keeps : c.Keeps EventFrame) (h : ReadsInPlace c s) :
    laneTick c s l = laneTick (inPlace c) s l := by
  have later := h.of_curves (keeps.takeEnds s).curves
  unfold laneTick
  dsimp only [inPlace]
  rw [fullTick_inPlace keeps later, haltedTick_inPlace later]
  rfl

end InPlace

/-- A soft reset within an event finds what the event, told in whatever way, leaves of its own state. -/
theorem resetAmid_congr {reset : Option Arrived} {run other : (State → ErrorDetail → State) → State → TickEnd}
    {s : State} (h : ∀ tell, (∀ s e, EventFrame s (tell s e)) → ∀ t, t.curves = s.curves →
      run tell t = other tell t) :
    resetAmid reset run s = resetAmid reset other s := by
  have reported := h report (fun s e => (tickFrame_report s e).event) s rfl
  have silent := h (fun s _ => s) (fun s _ => .refl s) { s with ret := s.ret.quiet } rfl
  have among (told : List ErrorDetail) :=
    h (tellAmong told) (eventFrame_tellAmong told) { s with ret := s.ret.quiet } rfl
  cases reset with
  | none => simp only [resetAmid, reported]
  | some a => simp only [resetAmid, reported, silent, among]

section Load

variable {c : CurveId} {k : Nat} {vs : List Word}

/-- A tick that reads both its points after `w.low` replacements is a tick of the part with those points
replaced. -/
theorem tickWith_inPlace (w : Within) (v : State) (l : LaneId) (order : w.high ≤ w.low) :
    tickWith (fun n => replacePoints c k (vs.take n)) w v l =
      tickWith (fun _ z => z) w (replacePoints c k (vs.take w.low) v) l := by
  have first := written_replacePoints (c := c) (vs.take w.low) k v
  have reads (tell : State → ErrorDetail → State) {t : State}
      (same : t.curves = (replacePoints c k (vs.take w.low) v).curves) :
      ReadsInPlace (courseOf tell (fun n => replacePoints c k (vs.take n)) w) t :=
    fun z h => replacePoints_written (first.of_curves (h.trans same)) order
  have ticks := resetAmid_congr (reset := w.reset) (s := replacePoints c k (vs.take w.low) v)
    fun tell frame t same => laneTick_inPlace (l := l)
      (courseOf_keeps_event tell frame (fun n => replacePoints c k (vs.take n)) w) (reads tell same)
  have kept := eventFrame_tickWith w (replacePoints c k (vs.take w.low) v) l
  unfold tickWith at *
  rw [ticks]
  exact replacePoints_written (first.of_curves kept.curves) order

/-- A tick of a TIMED lane that reads both its points after `low` replacements falls when those are made. -/
theorem timedTick_inPlace (t : TickOf) (v : State) (order : t.within.high ≤ t.within.low) :
    timedTick (fun n => replacePoints c k (vs.take n)) t v =
      timedTick (fun _ z => z) t (replacePoints c k (vs.take t.within.low) v) := by
  unfold timedTick
  rw [(onlyCurves_replacePoints _ k v).lane]
  cases (v.lane t.lane).pacing with
  | stopped => rfl
  | marks _ => rfl
  | timed next period =>
    dsimp only
    rw [tickWith_inPlace _ _ _ order, replacePoints_reach_modLane]

end Load

theorem timedTick_curves {t : TickOf} {s a : State} (h : timedTick (fun _ z => z) t s = some a) :
    a.curves = s.curves := by
  unfold timedTick at h
  split at h
  · cases h
    exact (eventFrame_tickWith t.within _ t.lane).curves
  · cases h
  · cases h

end Sys2Proof.Conversion
end


section
/-! PROOFS. What ticks and marks among the replacements of a curve load leave while its record stands at the head of
the command queue: no DISARM and no RESET is taken within them (R79, R126, R147, R166). -/

namespace Sys2Proof.Conversion

open Sys2Proof.Machine

/-- The Command Unit has a record of LOAD_CURVE to take. -/
def Loading (q : CommandUnit) : Prop := ∀ s : State, s.cmd = q →
  ∃ p, headRecord s = some p ∧ isCommand .loadCurve p = true

theorem loading_of_headed {s : State} {p : Place} {rest : List Place} (headed : Headed s p rest)
    (mine : isCommand .loadCurve p = true) : Loading s.cmd :=
  fun t same => ⟨p, headRecord_of (by rw [Headed, same]; exact headed), mine⟩

theorem isCommand_other {c d : Command} {p : Place} (h : isCommand c p = true) (other : d ≠ c) :
    isCommand d p = false := by
  simp only [isCommand, decide_eq_true_eq] at h
  simp [isCommand, h, other.symm]

/-- While the unit stands as `q`, everything that no tick touches stays. -/
def FrameWhile (q : CommandUnit) (s t : State) : Prop := s.cmd = q → TickFrame s t

theorem FrameWhile.trans {q : CommandUnit} {s t u : State} (a : FrameWhile q s t) (b : FrameWhile q t u) :
    FrameWhile q s u :=
  fun here => (a here).trans (b ((a here).cmd.trans here))

theorem FrameWhile.of_frame {q : CommandUnit} {s t : State} (h : TickFrame s t) : FrameWhile q s t := fun _ => h

theorem frameWhile_foldl {q : CommandUnit} {α : Type} {f : State → α → State}
    (h : ∀ s a, FrameWhile q s (f s a)) (as : List α) (s : State) : FrameWhile q s (as.foldl f s) := by
  induction as generalizing s with
  | nil => exact FrameWhile.of_frame (.refl s)
  | cons a rest ih => exact (h s a).trans (ih _)

theorem tickFrame_tellAmong (told : List ErrorDetail) (s : State) (e : ErrorDetail) :
    TickFrame s (tellAmong told s e) := by
  unfold tellAmong
  split
  · exact tickFrame_report s e
  · exact .refl s

section Loading

variable {q : CommandUnit} (loading : Loading q)

include loading

theorem takeHead_loading {c : Command} (other : c ≠ .loadCurve) (run : Place → State → State × Answer)
    {s : State} (here : s.cmd = q) : takeHead c run s = s := by
  obtain ⟨p, head, mine⟩ := loading s here
  simp [takeHead, head, isCommand_other mine other]

theorem resetAtHead_loading {s : State} (here : s.cmd = q) : resetAtHead s = false := by
  obtain ⟨p, head, mine⟩ := loading s here
  simp [resetAtHead, head, isCommand_other mine (d := .reset) (by decide)]

theorem frameWhile_takeWithin (s : State) (e : TickEvent) : FrameWhile q s (takeWithin s e) := by
  cases e with
  | disarm =>
    intro here
    rw [takeWithin, takeHead_loading loading (by decide) _ here]
    exact .refl s
  | ruleEnd r => exact FrameWhile.of_frame (tickFrame_takeWithin s (.ruleEnd r) (by simp))

theorem frameWhile_takeLate (attempted : List RuleId) (s : State) (e : TickEvent) :
    FrameWhile q s (takeLate attempted s e) := by
  unfold takeLate
  dsimp only
  split
  · exact FrameWhile.of_frame (.refl s)
  · exact frameWhile_takeWithin loading s e

theorem courseOf_keeps_while (tell : State → ErrorDetail → State) (h : ∀ s e, TickFrame s (tell s e))
    (replaced : Nat → State → State) (w : Within) : (courseOf tell replaced w).Keeps (FrameWhile q) :=
  ⟨FrameWhile.of_frame, FrameWhile.trans, fun s => FrameWhile.of_frame (tickFrame_settleBut s _),
    fun s e => FrameWhile.of_frame (h s e),
    fun s => frameWhile_foldl (frameWhile_takeWithin loading) _ s,
    fun a s => frameWhile_foldl (frameWhile_takeLate loading a) _ s⟩

/-- No RESET is taken within a tick, whatever the tick's operand says of one. -/
theorem frameWhile_resetAmid (reset : Option Arrived) (replaced : Nat → State → State) (w : Within) (s : State)
    (l : LaneId) :
    FrameWhile q s (resetAmid reset (fun tell s => laneTick (courseOf tell replaced w) s l) s) := by
  have ticks (tell : State → ErrorDetail → State) (h : ∀ s e, TickFrame s (tell s e)) (s : State) :
      FrameWhile q s (laneTick (courseOf tell replaced w) s l).1 :=
    (courseOf_keeps_while loading tell h replaced w).laneTick s l
  have whole := ticks report tickFrame_report s
  intro here
  cases reset with
  | none => exact whole here
  | some a =>
    have quiet (told : List ErrorDetail) :=
      (ticks (tellAmong told) (tickFrame_tellAmong told) { s with ret := s.ret.quiet } here).trans
        (tickFrame_settle _)
    have atHead (told : List ErrorDetail) := resetAtHead_loading loading ((quiet told).cmd.trans here)
    simp only [resetAmid, atHead, Bool.false_eq_true, if_false]
    exact whole here

end Loading

/-! ## What the events among the replacements leave -/

/-- The command queue and its unit, the TMC, trace memory, and every point that the values from point `k` on are
not for are the same. -/
structure AmongFrame (c : CurveId) (k : Nat) (vs : List Word) (s t : State) : Prop where
  cmd : t.cmd = s.cmd
  tmc : t.tmc = s.tmc
  mem : t.mem = s.mem
  points : ∀ d j, Untouched c k vs d j → t.point d j = s.point d j

section Among

variable {q : CommandUnit} {c : CurveId} {k : Nat} {vs : List Word}

theorem AmongFrame.refl (s : State) : AmongFrame c k vs s s := ⟨rfl, rfl, rfl, fun _ _ _ => rfl⟩

theorem AmongFrame.trans {s t u : State} (a : AmongFrame c k vs s t) (b : AmongFrame c k vs t u) :
    AmongFrame c k vs s u :=
  ⟨b.cmd.trans a.cmd, b.tmc.trans a.tmc, b.mem.trans a.mem,
    fun d j h => (b.points d j h).trans (a.points d j h)⟩

theorem AmongFrame.of_frame {s t : State} (h : TickFrame s t) : AmongFrame c k vs s t :=
  ⟨h.cmd, h.tmc, h.mem, fun d j _ => point_of_curves h.curves d j⟩

theorem amongFrame_replacePoints (n : Nat) (s : State) :
    AmongFrame c k vs s (replacePoints c k (vs.take n) s) :=
  have only := onlyCurves_replacePoints (c := c) (vs.take n) k s
  ⟨only.cmd, only.tmc, only.mem, fun d j h => (written_replacePoints (vs.take n) k s).2 d j (h.take n)⟩

variable (loading : Loading q) {s : State} (here : s.cmd = q)

include loading here

theorem amongFrame_tickWith (w : Within) (l : LaneId) :
    AmongFrame c k vs s (tickWith (fun n => replacePoints c k (vs.take n)) w s l) := by
  have low := amongFrame_replacePoints (c := c) (k := k) (vs := vs) w.low s
  have tick := frameWhile_resetAmid loading w.reset (fun n => replacePoints c k (vs.take n)) w _ l
    (low.cmd.trans here)
  exact (low.trans (.of_frame tick)).trans (amongFrame_replacePoints w.high _)

theorem amongFrame_timedTick {t : TickOf} {a : State}
    (ticked : timedTick (fun n => replacePoints c k (vs.take n)) t s = some a) : AmongFrame c k vs s a := by
  unfold timedTick at ticked
  split at ticked
  · next next period _ =>
    cases ticked
    have timer : AmongFrame c k vs s ((s.reach next).modLane t.lane fun x =>
        { x with pacing := .timed (next + period) period }) := ⟨rfl, rfl, rfl, fun _ _ _ => rfl⟩
    exact timer.trans (amongFrame_tickWith loading (timer.cmd.trans here) t.within t.lane)
  · cases ticked
  · cases ticked

theorem amongFrame_takeMark (number : Word) (t : MarkTaker) :
    AmongFrame c k vs s (takeMark (tickWith fun n => replacePoints c k (vs.take n)) number s t) := by
  cases t with
  | ruleTable => exact .of_frame (tickFrame_ruleTableMark s number)
  | lane l w =>
    have set (x : Lane) : AmongFrame c k vs s (s.setLane l x) := .of_frame (tickFrame_setLane s l x)
    have tick (x : Lane) := (set x).trans (amongFrame_tickWith loading (s := s.setLane l x) here w l)
    simp only [takeMark, laneTakesMark]
    split
    · split
      · exact tick _
      · exact .refl s
    · split
      · exact tick _
      · exact set _
    · exact .refl s

theorem amongFrame_takers (number : Word) (takers : List MarkTaker) :
    AmongFrame c k vs s
      (takers.foldl (takeMark (tickWith fun n => replacePoints c k (vs.take n)) number) s) := by
  induction takers generalizing s with
  | nil => exact .refl s
  | cons t rest ih =>
    have first := amongFrame_takeMark (c := c) (k := k) (vs := vs) loading here number t
    exact first.trans (ih (first.cmd.trans here))

theorem amongFrame_cycleMark (number : Word) (order : List MarkTaker) :
    AmongFrame c k vs s (cycleMark (fun n => replacePoints c k (vs.take n)) number order s) := by
  have jump (u : State) : AmongFrame c k vs u (checkJump u number) := by
    have frame := eventFrame_checkJump u number
    refine ⟨?_, frame.tmc, frame.mem, fun d j _ => point_of_curves frame.curves d j⟩
    unfold checkJump
    dsimp only
    split
    · rfl
    · exact (tickFrame_offerNotice _ _ _).cmd
  have marked : AmongFrame c k vs s (linkTakesMark (checkJump (settle s) number) number) :=
    ((AmongFrame.of_frame (tickFrame_settle s)).trans (jump _)).trans ⟨rfl, rfl, rfl, fun _ _ _ => rfl⟩
  exact marked.trans (amongFrame_takers loading (marked.cmd.trans here) number (markOrder order))

theorem amongFrame_takeAmong (e : CurveEvent) :
    AmongFrame c k vs s (takeAmong (fun n => replacePoints c k (vs.take n)) s e) := by
  cases e with
  | tick t =>
    rw [takeAmong]
    cases ticked : timedTick (fun n => replacePoints c k (vs.take n)) t s with
    | none => exact .refl s
    | some a => exact amongFrame_timedTick loading here ticked
  | mark number order => exact amongFrame_cycleMark loading here number order

theorem amongFrame_events (among : List CurveEvent) :
    AmongFrame c k vs s (among.foldl (takeAmong fun n => replacePoints c k (vs.take n)) s) := by
  induction among generalizing s with
  | nil => exact .refl s
  | cons e rest ih =>
    have first := amongFrame_takeAmong (c := c) (k := k) (vs := vs) loading here e
    exact first.trans (ih (first.cmd.trans here))

/-- Whatever falls among the replacements, the load leaves all its points replaced, and no other. -/
theorem written_replaceAmong (among : List CurveEvent) : Written c k vs s (replaceAmong among c k vs s) :=
  (written_replacePoints vs k _).of_untouched (amongFrame_events loading here among).points

theorem amongFrame_replaceAmong (among : List CurveEvent) :
    AmongFrame c k vs s (replaceAmong among c k vs s) := by
  have last := onlyCurves_replacePoints (c := c) vs k
    (among.foldl (takeAmong fun n => replacePoints c k (vs.take n)) s)
  have events := amongFrame_events (c := c) (k := k) (vs := vs) loading here among
  exact ⟨last.cmd.trans events.cmd, last.tmc.trans events.tmc, last.mem.trans events.mem,
    (written_replaceAmong loading here among).2⟩

end Among

end Sys2Proof.Conversion
end


section
/-! PROOFS. A tick of a RUNNING CONSTANT lane that no rule acts on, on any course, with its upper point read where the
course says (R16, R68, R74 to R82). -/

namespace Sys2Proof.Conversion

open Sys2Proof.Machine

/-! ## Updates that change nothing -/

theorem setLane_setLane (s : State) (l : LaneId) (x y : Lane) : (s.setLane l x).setLane l y = s.setLane l y := by
  simp [State.setLane]

theorem setLane_self (s : State) (l : LaneId) : s.setLane l (s.lane l) = s := by
  simp [State.setLane, State.lane]

theorem modLane_modLane (s : State) (l : LaneId) (f g : Lane → Lane) :
    (s.modLane l f).modLane l g = s.modLane l fun x => g (f x) := by
  simp [State.modLane, setLane_setLane]

theorem modLane_self {s : State} {l : LaneId} {f : Lane → Lane} (h : f (s.lane l) = s.lane l) :
    s.modLane l f = s := by
  rw [State.modLane, h, setLane_self]

theorem mapRules_self {s : State} {f : RuleId → Rule → Rule} (h : ∀ r, f r (s.rule r) = s.rule r) :
    s.mapRules f = s := by
  have rules : (s.mapRules f).rules = s.rules :=
    Vector.ext fun r bound => (State.rule_mapRules s f ⟨r, bound⟩).trans (h ⟨r, bound⟩)
  have only : s.mapRules f = { s with rules := (s.mapRules f).rules } := by simp only [State.mapRules]
  rw [only, rules]

/-! ## Rules that a tick does not move -/

/-- No rule is ARMED or TRIGGERED, and no activation has still to end. -/
def RulesQuiet (s : State) : Prop :=
  ∀ r, (s.rule r).state ≠ .armed ∧ (s.rule r).state ≠ .triggered ∧ (s.rule r).endDue = false

section Quiet

variable {s : State} (quiet : RulesQuiet s)

include quiet

theorem settle_quiet : settle s = s := by
  refine settle_of_not_unsettled ?_
  rw [unsettled, List.any_eq_false]
  intro x mem
  obtain ⟨r, bound, rfl⟩ := Vector.getElem_of_mem (Vector.mem_toList_iff.1 mem)
  obtain ⟨-, notTriggered, notEnding⟩ := quiet ⟨r, bound⟩
  simp only [State.rule] at notTriggered notEnding
  simp [Rule.delayEnds, notTriggered, notEnding]

theorem offerTrigger_quiet (inStep2 : Option LaneId) (hits : Rule → Bool) : offerTrigger s inStep2 hits = s :=
  mapRules_self fun r => by simp [canTake, (quiet r).1]

theorem markBase_quiet (l : LaneId) : markBase s l = s :=
  mapRules_self fun r => by simp [(quiet r).2.1]

theorem attemptsDue_quiet (l : LaneId) : attemptsDue s l = [] := by
  have none : ruleNumbers.filter (attemptFalls s l) = [] :=
    List.filter_eq_nil_iff.2 fun r _ => by simp [attemptFalls, (quiet r).2.1]
  rw [attemptsDue, none, List.foldl_nil]

theorem step2_quiet (l : LaneId) (e : Int) (mark : Option Nat) :
    step2 s l (.code e mark) = .goOn (s.modLane l fun x => { x with prev := some e }) [] := by
  have later : RulesQuiet (s.modLane l fun x => { x with prev := some e }) := quiet
  simp only [step2, offerTrigger_quiet quiet, markBase_quiet later, attemptsDue_quiet later, runAttempts]

theorem step3_quiet {l : LaneId} (chain : (s.lane l).chain = []) : step3 s l = .goOn s [] := by
  have counts (x : Rule) (h : x.state ≠ .triggered) : x.countTick l false = x := by
    simp [Rule.countTick, h]
  have rules : s.mapRules (fun i r => r.countTick l (([] : List RuleId).contains i)) = s :=
    mapRules_self fun r => counts _ (quiet r).2.1
  have gate : s.modLane l (fun x => { x with gate := (s.lane l).gate }) = s := modLane_self rfl
  simp only [step3, chain, List.find?_nil, drawGates, gate, rules]

end Quiet

/-! ## Steps 4 to 7 without rules -/

section Ungated

variable {s : State} {l : LaneId} {e : Int} {o : OutCode}

/-- The word that a code of lane `l` gives (R82). -/
def wordOf (x : Lane) (o : OutCode) : OutCode := formatWord x.config.wordLength o

theorem step4_ungated {upper : State → State}
    (reads : curveStageOver s (upper s) (s.lane l).config.curve e = .code o) :
    step4 upper s l [] e =
      .goOn (s.modLane l fun x => { x with history := pushHistory x.history (wordOf (s.lane l) o) })
        ⟨wordOf (s.lane l) o, false, false, (s.lane l).history⟩ := by
  have unsaturated : s.modLane l (Lane.countSaturation false) = s := modLane_self rfl
  have none (cls : ActionClass) : applying s [] cls = [] := rfl
  simp only [step4, none, valueStage, unsaturated, reads]
  rfl

theorem lastSteps_ungated {c : Course} {mark : Option Nat}
    (reads : curveStageOver s (c.upper s) (s.lane l).config.curve e = .code o) :
    lastSteps c s l { presented := .code e mark } [] =
      .goOn (handOver (s.modLane l fun x => { x with history := pushHistory x.history (wordOf (s.lane l) o) }) l
        (plainHandOver (wordOf (s.lane l) o) false)) () := by
  simp only [lastSteps, step4_ungated reads]
  rfl

end Ungated

/-! ## The whole tick -/

/-- The course takes nothing within the tick. -/
def TakesNothing (c : Course) : Prop := (∀ s, c.afterSource s = s) ∧ ∀ a s, c.afterTriggers a s = s

theorem sourceStage_constant {s : State} {l : LaneId} (constant : (s.lane l).config.source = .constant)
    (chain : (s.lane l).chain = []) :
    sourceStage s l = (s, { presented := .code (s.lane l).config.constantCode none }) := by
  simp only [sourceStage, freezers, chain, List.filter_nil, constant]

/-- A lane after a tick that presents `e` and gives `w`: counted, remembered and pushed (R16, R23, R24). -/
def afterTick (e : Int) (w : OutCode) (x : Lane) : Lane :=
  { x with
    counters := { x.counters with ticks := countUp x.counters.ticks }
    prev := some e
    history := (w :: x.history).take 64 }

section Constant

variable {c : Course} {s : State} {l : LaneId} {o : OutCode} (nothing : TakesNothing c) (quiet : RulesQuiet s)
  (constant : (s.lane l).config.source = .constant) (chain : (s.lane l).chain = [])
  (reads : ∀ t, t.curves = s.curves →
    curveStageOver t (c.upper t) (s.lane l).config.curve (s.lane l).config.constantCode = .code o)

include nothing quiet chain reads

theorem laterSteps_constant :
    laterSteps c s l { presented := .code (s.lane l).config.constantCode none } =
      .goOn (handOver (s.modLane l fun x => { x with
          prev := some (s.lane l).config.constantCode
          history := pushHistory x.history (wordOf (s.lane l) o) }) l
        (plainHandOver (wordOf (s.lane l) o) false)) () := by
  obtain ⟨afterSource, afterTriggers⟩ := nothing
  let sensed := s.modLane l fun x => { x with prev := some (s.lane l).config.constantCode }
  have still : RulesQuiet sensed := quiet
  have unchained : (sensed.lane l).chain = [] := by rw [State.lane_modLane_same]; exact chain
  simp only [laterSteps, afterSource, step2_quiet quiet, afterTriggers, step3_quiet still unchained, sensed]
  rw [lastSteps_ungated (o := o) (by rw [State.lane_modLane_same]; exact reads _ rfl), modLane_modLane,
    State.lane_modLane_same]
  rfl

include constant

theorem fullTick_constant :
    (fullTick c s l).1 =
      handOver (s.modLane l (afterTick (s.lane l).config.constantCode (wordOf (s.lane l) o))) l
        (plainHandOver (wordOf (s.lane l) o) false) := by
  have counted : (s.modLane l Lane.countTickTaken).lane l = (s.lane l).countTickTaken := State.lane_modLane_same _ _ _
  have source : sourceStage (s.modLane l Lane.countTickTaken) l =
      (s.modLane l Lane.countTickTaken, { presented := .code (s.lane l).config.constantCode none }) := by
    rw [sourceStage_constant (by rw [counted]; exact constant) (by rw [counted]; exact chain), counted]
    rfl
  have later := laterSteps_constant (s := s.modLane l Lane.countTickTaken) (l := l) (o := o) nothing quiet
    (by rw [counted]; exact chain) (by rw [counted]; exact reads)
  have config : (s.lane l).countTickTaken.config = (s.lane l).config := rfl
  rw [modLane_modLane, counted, config] at later
  simp only [fullTick, source, Course.told]
  rw [later]
  rfl

theorem laneTick_constant (ends : c.takeEnds s = s) (running : (s.lane l).state = .running) :
    (laneTick c s l).1 =
      handOver (s.modLane l (afterTick (s.lane l).config.constantCode (wordOf (s.lane l) o))) l
        (plainHandOver (wordOf (s.lane l) o) false) := by
  rw [← fullTick_constant nothing quiet constant chain reads]
  simp [laneTick, ends, running, constant]

end Constant

end Sys2Proof.Conversion
end


section
/-! PROOFS. LOAD_CURVE: its refusals, its replacements, and the ticks and marks among them (R78, R79, R173). -/

namespace Sys2Proof.Conversion

open Sys2Proof.Machine

/-! ## The record (R78, R173) -/

/-- The values of a record that are for points up to 64. -/
def keptValues (p : Place) : List Word := p.payload.take (65 - p.index)

/-- The reply of a curve load: the points written. -/
def loadReply (p : Place) : Reply :=
  ⟨if 65 < p.index + p.payload.length then .adjusted else .done, p.tag, p.code,
    [BitVec.ofNat 32 (keptValues p).length]⟩

section Record

variable {s : State} {p : Place} {rest : List Place} (headed : Headed s p rest) (carried : CarriedOut .loadCurve p)

include headed carried

theorem exec_loadCurve_badIndex (among : List CurveEvent) (curve : 16 ≤ field (param p.payload 0) 24 5) :
    exec (.loadCurve among) s = .next (replied (settle s) p rest ⟨.badIndex, p.tag, p.code, []⟩) :=
  takeRecord_reply headed carried (isCommand_carriedOut carried)
    (by simp only [runLoadCurve, toFin?_none curve, refusedWith]) rfl

theorem exec_loadCurve_badValue {c : CurveId} (among : List CurveEvent)
    (curve : field (param p.payload 0) 24 5 = c.val) (beyond : 64 < p.index) :
    exec (.loadCurve among) s = .next (replied (settle s) p rest ⟨.badValue, p.tag, p.code, []⟩) :=
  takeRecord_reply headed carried (isCommand_carriedOut carried)
    (by simp only [runLoadCurve, toFin?_val c curve, if_neg (Nat.not_le.2 beyond), refusedWith]) rfl

theorem loading_settle : Loading (settle s).cmd := by
  rw [settle_cmd]
  exact loading_of_headed headed (isCommand_carriedOut carried)

theorem exec_loadCurve {c : CurveId} (among : List CurveEvent) (curve : field (param p.payload 0) 24 5 = c.val)
    (index : p.index ≤ 64) :
    exec (.loadCurve among) s =
      .next (replied (replaceAmong among c p.index (keptValues p) (settle s)) p rest (loadReply p)) := by
  have adjusted : (keptValues p).length < p.payload.length ↔ 65 < p.index + p.payload.length := by
    simp only [keptValues, List.length_take]
    omega
  have run : runLoadCurve among p (settle s) =
      (replaceAmong among c p.index (keptValues p) (settle s),
        .reply (loadReply p).status (loadReply p).payload) := by
    simp only [runLoadCurve, toFin?_val c curve, if_pos index, loadReply, ← adjusted]
    rfl
  have kept := amongFrame_replaceAmong (c := c) (k := p.index) (vs := keptValues p)
    (loading_settle headed carried) rfl among
  exact takeRecord_reply headed carried (isCommand_carriedOut carried) run (congrArg _ kept.cmd)

end Record

/-! ## Ticks among the replacements (R79) -/

section Ticks

variable {c : CurveId} {k : Nat} {vs : List Word}

/-- A tick that reads both its points after `low` replacements is the event TIMED_TICK of the part with those
points replaced. -/
theorem takeAmong_tick {t : TickOf} {v : State} (order : t.within.high ≤ t.within.low)
    (timed : ∃ next period, (v.lane t.lane).pacing = .timed next period) :
    ∃ after, takeAmong (fun n => replacePoints c k (vs.take n)) v (.tick t) = after ∧
      exec (.timedTick t) (replacePoints c k (vs.take t.within.low) v) = .next after ∧
      Written c k (vs.take t.within.low) v after := by
  obtain ⟨next, period, timer⟩ := timed
  have before := onlyCurves_replacePoints (c := c) (vs.take t.within.low) k v
  obtain ⟨after, ticked⟩ : ∃ after,
      timedTick (fun _ z => z) t (replacePoints c k (vs.take t.within.low) v) = some after := by
    simp [timedTick, before.lane, timer]
  refine ⟨after, ?_, ?_, (written_replacePoints _ k v).of_curves (timedTick_curves ticked)⟩
  · rw [takeAmong, timedTick_inPlace t v order, ticked, Option.getD_some]
  · simp only [exec, execTimedTick, ticked]

/-- A tick of a quiet CONSTANT lane that reads P[k] after `n` replacements and P[k + 1] after `high`. -/
theorem takeAmong_tick_constant {u : State} {l : LaneId} {n high next period : Nat} {o : OutCode}
    (timer : (u.lane l).pacing = .timed next period) (running : (u.lane l).state = .running)
    (constant : (u.lane l).config.source = .constant) (chain : (u.lane l).chain = []) (quiet : RulesQuiet u)
    (reads : curveStageOver (replacePoints c k (vs.take n) u)
      (replacePoints c k (vs.take high) (replacePoints c k (vs.take n) u))
      (u.lane l).config.curve (u.lane l).config.constantCode = .code o) :
    OnlyCurves
      (handOver ((u.reach next).modLane l fun x => afterTick (u.lane l).config.constantCode (wordOf (u.lane l) o)
          { x with pacing := .timed (next + period) period })
        l (plainHandOver (wordOf (u.lane l) o) false))
      (takeAmong (fun n => replacePoints c k (vs.take n)) u (.tick ⟨l, { low := n, high := high }⟩)) := by
  have before := onlyCurves_replacePoints (c := c) (vs.take n) k u
  generalize known : replacePoints c k (vs.take n) u = v at before reads
  let ticking := (v.reach next).modLane l fun x => { x with pacing := .timed (next + period) period }
  have lane : ticking.lane l = { u.lane l with pacing := .timed (next + period) period } := by
    rw [State.lane_modLane_same, State.lane_reach, before.lane]
  have settled : RulesQuiet ticking := fun r => before.rule r ▸ quiet r
  have later (t : State) (same : t.curves = ticking.curves) :
      (replacePoints c k (vs.take high) t).curves = (replacePoints c k (vs.take high) v).curves :=
    ((written_replacePoints _ k t).of_untouched fun d j _ => point_of_curves same d j).curves_eq
      (written_replacePoints _ k v)
  have ticked := laneTick_constant (c := courseOf report (fun n => replacePoints c k (vs.take n))
      { low := n, high := high }) (s := ticking) (l := l) (o := o) ⟨fun _ => rfl, fun _ _ => rfl⟩ settled
    (by rw [lane]; exact constant) (by rw [lane]; exact chain)
    (fun t same => by rw [lane]; exact (curveStageOver_congr same (later t same) _ _).trans reads)
    (by simpa [courseOf, heldEnds] using settle_quiet settled) (by rw [lane]; exact running)
  have taken : takeAmong (fun n => replacePoints c k (vs.take n)) u (.tick ⟨l, { low := n, high := high }⟩) =
      replacePoints c k (vs.take high) (laneTick (courseOf report (fun n => replacePoints c k (vs.take n))
        { low := n, high := high }) ticking l).1 := by
    simp only [takeAmong, timedTick, timer, Option.getD_some, tickWith, resetAmid_none,
      replacePoints_reach_modLane, known]
    rfl
  rw [taken, ticked, lane, modLane_modLane]
  exact (((before.reach next).modLane l _).handOver l _).trans (onlyCurves_replacePoints _ k _)

end Ticks

/-- Settles O48. The events among the replacements are taken of the part with so many points replaced, and the
last replacement leaves all of them. -/
theorem curveLoadReplacesPoints : Obligations.CurveLoadReplacesPoints := by
  intro s p rest headed carried u number
  refine ⟨fun among high => exec_loadCurve_badIndex headed carried among high, fun among low beyond =>
    exec_loadCurve_badValue (c := ⟨number, low⟩) headed carried among rfl beyond, fun c curve index => ?_⟩
  intro values reply written
  have loading : Loading u.cmd := loading_settle headed carried
  have loads (among : List CurveEvent) : exec (.loadCurve among) s =
      .next (replied (replaceAmong among c p.index values u) p rest reply) :=
    exec_loadCurve headed carried among curve index
  have whole (v : State) (h : Written c p.index values u v) : written values.length v := by
    have all : Written c p.index (values.take values.length) u v := by rwa [List.take_length]
    exact all
  have replacedAll (among : List CurveEvent) : written values.length (replaceAmong among c p.index values u) :=
    whole _ (written_replaceAmong loading rfl among)
  have first (n : Nat) : Written c p.index (values.take n) u (replacePoints c p.index (values.take n) u) :=
    written_replacePoints _ _ u
  refine ⟨⟨_, loads [], replacedAll [], onlyCurves_replacePoints values p.index u⟩, fun among => ?among,
    fun t n _ low high timed => ?ticks, fun number order => ?mark, ?constant⟩
  case among =>
    have frame := amongFrame_replaceAmong (c := c) (k := p.index) (vs := values) loading rfl among
    exact ⟨_, loads among, replacedAll among, frame.cmd, frame.mem, frame.tmc⟩
  case ticks =>
    subst low
    obtain ⟨after, taken, ticked, writtenAfter⟩ := takeAmong_tick (c := c) (k := p.index) (vs := values) high timed
    have one : replaceAmong [.tick t] c p.index values u = replacePoints c p.index values after := by
      rw [← taken]
      rfl
    refine ⟨_, after, _, first _, onlyCurves_replacePoints _ _ u, ticked, one ▸ loads [.tick t],
      one ▸ replacedAll [.tick t], onlyCurves_replacePoints values p.index after, ?_⟩
    intro t₂ m more _ low₂ high₂ timed₂
    subst low₂
    obtain ⟨last, taken₂, ticked₂, -⟩ := takeAmong_tick (c := c) (k := p.index) (vs := values) high₂ timed₂
    have two : replaceAmong [.tick t, .tick t₂] c p.index values u = replacePoints c p.index values last := by
      rw [← taken₂, ← taken]
      rfl
    exact ⟨_, last, _, writtenAfter.further (written_replacePoints _ _ after) more,
      onlyCurves_replacePoints _ _ after, ticked₂, two ▸ loads [.tick t, .tick t₂],
      two ▸ replacedAll [.tick t, .tick t₂], onlyCurves_replacePoints values p.index last⟩
  case mark =>
    exact ⟨first, fun w v l => tickWith_inPlace w v l, _, loads [.mark number order],
      replacedAll [.mark number order], onlyCurves_replacePoints values p.index _⟩
  case constant =>
    intro l n m next period o x e _ timer running constant chain quiet
    refine ⟨_, replacePoints c p.index (values.take (n + m)) _,
      replaceAmong [.tick ⟨l, { low := n, high := n + m }⟩] c p.index values u,
      first n, onlyCurves_replacePoints _ _ u, (first n).further (written_replacePoints _ _ _) (Nat.le_add_right n m),
      fun reads => ?_⟩
    have ticked := takeAmong_tick_constant (c := c) (k := p.index) (vs := values) timer running constant chain
      quiet reads
    exact ⟨loads [.tick ⟨l, { low := n, high := n + m }⟩], replacedAll _,
      ticked.trans (onlyCurves_replacePoints values p.index _)⟩

end Sys2Proof.Conversion
end

section
/-! PROOFS. The operations of the Rule Table, one by one: what each makes of the rules, the lanes and the Return
Sender (R93, R94, R97, R102, R104, R105, R108, R111). -/

namespace Sys2Proof.FaultRules

open Sys2Proof.Machine

/-! ## States that differ in few fields -/

theorem mapRules_eq_with (s : State) (f : RuleId → Rule → Rule) :
    s.mapRules f = { s with rules := (s.mapRules f).rules } := by
  simp only [State.mapRules]

theorem rules_ext {s t : State} (h : ∀ r, t.rule r = s.rule r) : t.rules = s.rules :=
  Vector.ext fun r bound => h ⟨r, bound⟩

/-- Two updates of the rules that make the same of every rule are one. -/
theorem mapRules_congr {s : State} {f g : RuleId → Rule → Rule} (h : ∀ r, f r (s.rule r) = g r (s.rule r)) :
    s.mapRules f = s.mapRules g := by
  have rules : (s.mapRules f).rules = (s.mapRules g).rules := rules_ext fun r => by simpa using h r
  rw [mapRules_eq_with s f, mapRules_eq_with s g, rules]

theorem modRule_eq_mapRules (s : State) (i : RuleId) (f : Rule → Rule) :
    s.modRule i f = s.mapRules fun r x => if r = i then f x else x := by
  have rules : (s.modRule i f).rules = (s.mapRules fun r x => if r = i then f x else x).rules :=
    rules_ext fun r => by
      by_cases same : r = i
      · subst same
        simp
      · simp [State.rule_modRule, same, Ne.symm same]
  have only : s.modRule i f = { s with rules := (s.modRule i f).rules } := rfl
  rw [only, rules, mapRules_eq_with s]

/-- Within the frame of ticks, with directory and latch the same, only lanes, rules and the Return Sender differ. -/
theorem eq_with_of_tickFrame {s t : State} (frame : TickFrame s t) (dir : t.dir = s.dir)
    (latch : t.latch = s.latch) : t = { s with lanes := t.lanes, rules := t.rules, ret := t.ret } := by
  obtain ⟨now, resetLow, link, cmd, curves, tmc, mem, freeCount, pending⟩ := frame
  cases t
  simp_all

/-! ## Triggers (R93, R94, R97) -/

theorem inPlay_iff (x : LaneState) : x.inPlay = true ↔ x = .primed ∨ x = .running ∨ x = .draining := by
  cases x <;> simp [LaneState.inPlay]

theorem laneInPlay_iff (s : State) (n : Nat) : laneInPlay s n = true ↔
    ∃ l : LaneId, n = l.val ∧
      ((s.lane l).state = .primed ∨ (s.lane l).state = .running ∨ (s.lane l).state = .draining) := by
  simp only [← inPlay_iff]
  by_cases bound : n < 24
  · have isLane : toFin? n 24 = some ⟨n, bound⟩ := toFin?_val _ rfl
    simp only [laneInPlay, isLane]
    constructor
    · exact fun inPlay => ⟨_, rfl, inPlay⟩
    · rintro ⟨l, rfl, inPlay⟩
      exact inPlay
  · simp only [laneInPlay, toFin?_none (Nat.le_of_not_lt bound), Bool.false_eq_true, false_iff]
    rintro ⟨l, rfl, -⟩
    exact bound l.isLt

theorem laneInPlay_congr {s t : State} (states : ∀ l, (t.lane l).state = (s.lane l).state) (n : Nat) :
    laneInPlay t n = laneInPlay s n := by
  rw [Bool.eq_iff_iff, laneInPlay_iff, laneInPlay_iff]
  simp only [states]

theorem canTake_iff {s : State} {x : Rule} :
    canTake s x = true ↔ x.state = .armed ∧ laneInPlay s x.fields.lane = true := by
  simp [canTake]

theorem canTake_congr {s t : State} (states : ∀ l, (t.lane l).state = (s.lane l).state) (x : Rule) :
    canTake t x = canTake s x := by
  rw [canTake, canTake, laneInPlay_congr states]

theorem waitsFor_iff {i : RuleId} {signal : RuleSignal} {x : Rule} :
    waitsFor i signal x = true ↔ x.fields.trigger = .onRule i signal := by
  unfold waitsFor
  cases x.fields.trigger <;> simp

/-- What a trigger offered outside a tick's step 2 makes of each rule. -/
theorem rule_offerTrigger_none (s : State) (hits : Rule → Bool) (j : RuleId) :
    (offerTrigger s none hits).rule j =
      if canTake s (s.rule j) = true ∧ hits (s.rule j) = true then (s.rule j).trigger false else s.rule j := by
  simp only [offerTrigger, State.rule_mapRules, Bool.and_eq_true]

/-- Within step 2 of a tick of lane `l`, this tick is the base tick of that lane's rules. -/
theorem rule_offerTrigger_some (s : State) (l : LaneId) (hits : Rule → Bool) (j : RuleId) :
    (offerTrigger s (some l) hits).rule j =
      if canTake s (s.rule j) = true ∧ hits (s.rule j) = true then
        (s.rule j).trigger (decide ((s.rule j).fields.lane = l.val))
      else s.rule j := by
  simp only [offerTrigger, State.rule_mapRules, Bool.and_eq_true]

/-- An ON_RULE delivery outside a tick's step 2 reaches the rules that wait for it (R97). -/
theorem rule_deliverOnRule_none (s : State) (i : RuleId) (signal : RuleSignal) (j : RuleId) :
    (deliverOnRule s i signal none).rule j =
      if canTake s (s.rule j) = true ∧ (s.rule j).fields.trigger = .onRule i signal then (s.rule j).trigger false
      else s.rule j := by
  simp only [deliverOnRule, rule_offerTrigger_none, waitsFor_iff]

theorem rule_deliverOnRule_some (s : State) (i : RuleId) (signal : RuleSignal) (l : LaneId) (j : RuleId) :
    (deliverOnRule s i signal (some l)).rule j =
      if canTake s (s.rule j) = true ∧ (s.rule j).fields.trigger = .onRule i signal then
        (s.rule j).trigger (decide ((s.rule j).fields.lane = l.val))
      else s.rule j := by
  simp only [deliverOnRule, rule_offerTrigger_some, waitsFor_iff]

@[simp] theorem lane_offerTrigger (s : State) (inStep2 : Option LaneId) (hits : Rule → Bool) (l : LaneId) :
    (offerTrigger s inStep2 hits).lane l = s.lane l := State.lane_mapRules s _ l

@[simp] theorem offerTrigger_ret (s : State) (inStep2 : Option LaneId) (hits : Rule → Bool) :
    (offerTrigger s inStep2 hits).ret = s.ret := State.mapRules_ret s _

@[simp] theorem offerTrigger_dir (s : State) (inStep2 : Option LaneId) (hits : Rule → Bool) :
    (offerTrigger s inStep2 hits).dir = s.dir := State.mapRules_dir s _

@[simp] theorem offerTrigger_latch (s : State) (inStep2 : Option LaneId) (hits : Rule → Bool) :
    (offerTrigger s inStep2 hits).latch = s.latch := State.mapRules_latch s _

/-- An IMMEDIATE rule that can take a trigger takes it. -/
theorem judgeImmediate_eq (s : State) (x : Rule) :
    judgeImmediate s x = if canTake s x = true ∧ x.fields.trigger = .immediate then x.trigger false else x := by
  simp only [judgeImmediate, Bool.and_eq_true, decide_eq_true_eq]

/-! ## Chains (R104, R108) -/

@[simp] theorem lane_leaveChains (s : State) (i : RuleId) (l : LaneId) :
    (leaveChains s i).lane l = { s.lane l with chain := (s.lane l).chain.erase i } := by
  rw [leaveChains, State.lane_mapLanes]
  split
  · rfl
  · next absent =>
    rw [List.erase_of_not_mem (by simpa using absent)]

@[simp] theorem rule_leaveChains (s : State) (i r : RuleId) : (leaveChains s i).rule r = s.rule r :=
  State.rule_mapLanes s _ r

@[simp] theorem leaveChains_ret (s : State) (i : RuleId) : (leaveChains s i).ret = s.ret :=
  State.mapLanes_ret s _

@[simp] theorem leaveChains_link (s : State) (i : RuleId) : (leaveChains s i).link = s.link :=
  State.mapLanes_link s _

@[simp] theorem leaveChains_dir (s : State) (i : RuleId) : (leaveChains s i).dir = s.dir :=
  State.mapLanes_dir s _

@[simp] theorem leaveChains_latch (s : State) (i : RuleId) : (leaveChains s i).latch = s.latch :=
  State.mapLanes_latch s _

/-- What a rule that fails its check leaves (R108). -/
structure Vacated (s : State) (i : RuleId) (t : State) : Prop where
  self : t.rule i = .vacant
  others : ∀ j, j ≠ i → t.rule j = s.rule j
  lane : ∀ k, t.lane k = { s.lane k with chain := (s.lane k).chain.erase i }
  frame : t = { s with lanes := t.lanes, rules := t.rules }

theorem vacated_vacate (s : State) (i : RuleId) : Vacated s i (vacate s i) where
  self := State.rule_setRule_same _ i _
  others j other := by simp [vacate, State.rule_setRule, Ne.symm other]
  lane k := lane_leaveChains s i k
  frame := by
    have ret : (vacate s i).ret = s.ret := leaveChains_ret s i
    refine (eq_with_of_tickFrame (tickFrame_vacate s i) (leaveChains_dir s i) (leaveChains_latch s i)).trans ?_
    rw [ret]

/-! ## Notices (R111) -/

/-- The TICKS counter of the lane with this number, 0 where there is none (log 47). -/
def ticksOf (s : State) (lane : Nat) : Nat := if h : lane < 24 then (s.lane ⟨lane, h⟩).counters.ticks else 0

theorem targetTicks_eq (s : State) (x : Rule) : targetTicks s x = ticksOf s x.fields.lane := by
  unfold targetTicks ticksOf
  by_cases bound : x.fields.lane < 24
  · rw [toFin?_val (⟨_, bound⟩ : LaneId) rfl, dif_pos bound]
  · rw [toFin?_none (Nat.le_of_not_lt bound), dif_neg bound]

theorem ticksOf_congr {s t : State} (counters : ∀ l, (t.lane l).counters = (s.lane l).counters) (lane : Nat) :
    ticksOf t lane = ticksOf s lane := by
  simp only [ticksOf, counters]

/-- The RULE_EVENT notice of rule `i` with its event's code and its count, offered where NOTIFY is yes. -/
def noticed (s : State) (i : RuleId) (event count : Nat) : ReturnSender :=
  if (s.rule i).fields.notify then
    (offerNotice s .ruleEvent
      [BitVec.ofNat 32 (i.val + event * 2 ^ 8 + (s.rule i).fields.lane * 2 ^ 12), s.link.currentCycle,
        BitVec.ofNat 32 (ticksOf s (s.rule i).fields.lane), BitVec.ofNat 32 count]).ret
  else s.ret

/-- The count that a RULE_EVENT notice carries. -/
def eventCount (x : Rule) : RuleEvent → Nat
  | .active => 0
  | .ended => x.activations
  | .missed => x.missed

theorem offerRuleEvent_ret (s : State) (i : RuleId) (event : RuleEvent) :
    (offerRuleEvent s i event).ret = noticed s i event.code (eventCount (s.rule i) event) := by
  have packed : packWord [(i.val, 0), (event.code, 8), ((s.rule i).fields.lane, 12)] =
      BitVec.ofNat 32 (i.val + event.code * 2 ^ 8 + (s.rule i).fields.lane * 2 ^ 12) := by
    simp [packWord, Nat.add_assoc]
  unfold offerRuleEvent noticed
  dsimp only
  rw [packed, targetTicks_eq]
  split <;> cases event <;> rfl

/-- The Return Sender that an offered notice leaves is made of the one that stood before. -/
theorem offerNotice_ret_congr {s t : State} (ret : t.ret = s.ret) (kind : NoticeKind) (words : List Word) :
    (offerNotice t kind words).ret = (offerNotice s kind words).ret := by
  simp only [offerNotice, noticeEnabled, ret]
  split
  · split <;> rfl
  · exact ret

theorem noticed_congr {s t : State} {i : RuleId} (ret : t.ret = s.ret) (link : t.link = s.link)
    (counters : ∀ l, (t.lane l).counters = (s.lane l).counters) (fields : (t.rule i).fields = (s.rule i).fields)
    (event count : Nat) : noticed t i event count = noticed s i event count := by
  simp only [noticed, fields, link, ticksOf_congr counters, offerNotice_ret_congr ret, ret]

/-- A notice changes the notice queue alone. -/
theorem offerNotice_ret_eq_with (s : State) (kind : NoticeKind) (words : List Word) :
    (offerNotice s kind words).ret = { s.ret with
      notices := (offerNotice s kind words).ret.notices
      noticesDropped := (offerNotice s kind words).ret.noticesDropped } := by
  unfold offerNotice
  split
  · split <;> rfl
  · rfl

@[simp] theorem rule_offerRuleEvent (s : State) (i r : RuleId) (event : RuleEvent) :
    (offerRuleEvent s i event).rule r = s.rule r := by
  unfold offerRuleEvent
  dsimp only
  split
  · simp only [State.rule, offerNotice_rules]
  · rfl

@[simp] theorem lane_offerRuleEvent (s : State) (i : RuleId) (event : RuleEvent) (l : LaneId) :
    (offerRuleEvent s i event).lane l = s.lane l := by
  unfold offerRuleEvent
  dsimp only
  split
  · simp only [State.lane, offerNotice_lanes]
  · rfl

end Sys2Proof.FaultRules
end

section
/-! PROOFS. FIRE, DISARM and ARM: their forms, their refusals and what they make of the rules (R91 to R95, R98,
R169). -/

namespace Sys2Proof.FaultRules

open Sys2Proof.Machine

/-! ## Counted rules -/

theorem nodup_ruleNumbers : ruleNumbers.Nodup := List.nodup_finRange 256

@[simp] theorem mem_ruleNumbers (r : RuleId) : r ∈ ruleNumbers := List.mem_finRange r

theorem filter_ruleNumbers_eq (r : RuleId) : (ruleNumbers.filter fun j => decide (j = r)) = [r] := by
  rw [List.filter_eq, List.count_eq_one_of_mem nodup_ruleNumbers (mem_ruleNumbers r), List.replicate_one]

/-- A list that names without repetition the rules that pass a test is as long as their number. -/
theorem length_filter_ruleNumbers {rules : List RuleId} (nodup : rules.Nodup) {chosen : RuleId → Bool}
    (names : ∀ r, r ∈ rules ↔ chosen r = true) : (ruleNumbers.filter chosen).length = rules.length := by
  refine List.Perm.length_eq ((List.perm_ext_iff_of_nodup (nodup_ruleNumbers.filter _) nodup).2 fun r => ?_)
  simp [names]

theorem busy_iff (x : RuleState) : x.busy = true ↔ x = .armed ∨ x = .triggered ∨ x = .active := by
  cases x <;> simp [RuleState.busy]

theorem armable_iff (x : RuleState) : x.armable = true ↔ x = .loaded ∨ x = .spent := by
  cases x <;> simp [RuleState.armable]

/-! ## FIRE (R98) -/

/-- Settles O56: the rules that FIRE triggers are those that can take a trigger and wait on the channel. -/
theorem fireTriggersItsChannel : Obligations.FireTriggersItsChannel := by
  intro s p rest headed carried u takes
  have mine : isCommand .fire p = true := isCommand_carriedOut carried
  refine ⟨fun high => ?refused, fun low rules nodup names => ?fired⟩
  case refused =>
    exact takeRecord_reply headed carried mine (by rw [runFire, if_neg (by omega)]; rfl) rfl
  case fired =>
    have takes_iff (r : RuleId) :
        takes r ↔ (canTake u (u.rule r) && onChannel p.index (u.rule r)) = true := by
      rw [Bool.and_eq_true, canTake_iff, laneInPlay_iff, onChannel, decide_eq_true_eq]
      exact ⟨fun ⟨armed, waits, lane⟩ => ⟨⟨armed, lane⟩, waits⟩,
        fun ⟨⟨armed, lane⟩, waits⟩ => ⟨armed, waits, lane⟩⟩
    have count := length_filter_ruleNumbers nodup fun r => (names r).trans (takes_iff r)
    refine ⟨offerTrigger u none (onChannel p.index),
      takeRecord_reply headed carried mine ?_ (congrArg _ (tickFrame_offerTrigger u _ _).cmd),
      fun r named => ?_, fun r unnamed => ?_, mapRules_eq_with u _⟩
    · rw [runFire, if_pos low, count]
      rfl
    · have taken := (takes_iff r).1 ((names r).1 named)
      rw [rule_offerTrigger_none, if_pos ((Bool.and_eq_true _ _).mp taken)]
      rfl
    · have passed := fun taken => unnamed ((names r).2 ((takes_iff r).2 ((Bool.and_eq_true _ _).mpr taken)))
      rw [rule_offerTrigger_none, if_neg passed]

/-! ## Forms (R169) -/

section Forms

variable {s : State} {p : Place} {rest : List Place} {c : Command}

theorem takesForm_of {other : Nat} (carried : CarriedOut c p) (form : armForm p ≠ other) :
    takesForm c other p = true := by
  simp [takesForm, isCommand_carriedOut carried, form]

theorem withForm_of {form : Nat} (run : Place → State → State × Answer) (u : State) (same : armForm p = form) :
    withForm form run p u = run p u := if_pos same

/-- A row of one form carries out the records of that form. -/
theorem takeRecord_form {m : String} {other form : Nat} {run : Place → State → State × Answer} {v : State}
    {status : Status} {words : List Word} (headed : Headed s p rest) (carried : CarriedOut c p)
    (same : armForm p = form) (differ : form ≠ other) (ran : run p (settle s) = (v, .reply status words))
    (cmd : v.cmd = (settle s).cmd) :
    takeRecord m (takesForm c other) (withForm form run) s =
      .next (replied v p rest ⟨status, p.tag, p.code, words⟩) :=
  takeRecord_reply headed carried (takesForm_of carried (same ▸ differ))
    ((withForm_of run _ same).trans ran) (congrArg _ cmd)

/-- An undefined form is refused by either row. -/
theorem takeRecord_badForm {m : String} {other form : Nat} {run : Place → State → State × Answer}
    (headed : Headed s p rest) (carried : CarriedOut c p) (undefined : armForm p ≠ form)
    (mine : armForm p ≠ other) :
    takeRecord m (takesForm c other) (withForm form run) s =
      .next (replied (settle s) p rest ⟨.badValue, p.tag, p.code, []⟩) :=
  takeRecord_reply headed carried (takesForm_of carried mine) (if_neg undefined) rfl

end Forms

/-! ## DISARM (R92) -/

/-- The rules of a choice that DISARM reaches. -/
def disarms (u : State) (chosen : RuleId → Bool) (i : RuleId) : Bool := chosen i && (u.rule i).state.busy

theorem rule_disarmAll (u : State) (chosen : RuleId → Bool) (i : RuleId) :
    (disarmAll u chosen).1.rule i = if disarms u chosen i then (u.rule i).disarmed else u.rule i := by
  simp [disarmAll, disarms]

theorem lane_disarmAll (u : State) (chosen : RuleId → Bool) (l : LaneId) :
    (disarmAll u chosen).1.lane l =
      { u.lane l with chain := (u.lane l).chain.filter fun i => !disarms u chosen i } := by
  simp [disarmAll, disarms]

theorem disarmAll_eq_with (u : State) (chosen : RuleId → Bool) :
    (disarmAll u chosen).1 =
      { u with rules := (disarmAll u chosen).1.rules, lanes := (disarmAll u chosen).1.lanes } := by
  simp only [disarmAll, State.mapRules, State.mapLanes]

/-- What DISARM leaves, where `rules` names the rules that it reaches. -/
structure Disarmed (u : State) (rules : List RuleId) (v : State) : Prop where
  reached : ∀ r ∈ rules, v.rule r = (u.rule r).disarmed
  others : ∀ r, r ∉ rules → v.rule r = u.rule r
  lane : ∀ l, v.lane l = { u.lane l with chain := (u.lane l).chain.filter fun r => decide (r ∉ rules) }
  frame : v = { u with rules := v.rules, lanes := v.lanes }

theorem disarmed_disarmAll {u : State} {chosen : RuleId → Bool} {rules : List RuleId}
    (names : ∀ r, r ∈ rules ↔ disarms u chosen r = true) : Disarmed u rules (disarmAll u chosen).1 where
  reached r named := by rw [rule_disarmAll, if_pos ((names r).1 named)]
  others r unnamed := by rw [rule_disarmAll, if_neg fun h => unnamed ((names r).2 h)]
  lane l := by
    have same : (fun i => !disarms u chosen i) = fun r => decide (r ∉ rules) := by
      funext r
      rw [Bool.eq_iff_iff]
      simp [names]
    rw [lane_disarmAll, same]
  frame := disarmAll_eq_with u chosen

/-- Settles O55: either form disarms the rules of its choice. -/
theorem disarmingReturnsRules : Obligations.DisarmingReturnsRules := by
  intro s p rest headed carried u form refused leaves
  have leavesWith {m : String} {other own : Nat} {run : Place → State → State × Answer} {row : Instr}
      {which : RuleId → Prop} {chosen : RuleId → Bool} (agree : ∀ r, which r ↔ chosen r = true)
      (isRow : exec row s = takeRecord m (takesForm .disarm other) (withForm own run) s)
      (same : form = own) (differ : own ≠ other) (ran : run p u = disarmAll u chosen) : leaves row which := by
    intro rules nodup names
    have reaches (r : RuleId) : r ∈ rules ↔ disarms u chosen r = true := by
      rw [names, disarms, Bool.and_eq_true, busy_iff, agree]
    obtain ⟨reached, others, lane, frame⟩ := disarmed_disarmAll reaches
    refine ⟨(disarmAll u chosen).1, isRow.trans (takeRecord_form headed carried same differ ?_ ?_),
      reached, others, lane, frame⟩
    · rw [ran, ← length_filter_ruleNumbers nodup reaches]
      rfl
    · rw [frame]
  refine ⟨fun rule => ⟨fun high => ?noRule, fun r index => ⟨fun vacant => ?vacant, fun defined => ?rule⟩⟩,
    fun group => ⟨fun high => ?noGroup, fun low => ?group⟩, fun undefined => ?undefined⟩
  case noRule =>
    exact takeRecord_form headed carried rule (by decide) (by rw [runDisarmRule, toFin?_none high]; rfl) rfl
  case vacant =>
    exact takeRecord_form headed carried rule (by decide)
      (by rw [runDisarmRule, toFin?_val r index]; exact if_pos vacant) rfl
  case rule =>
    exact leavesWith (fun j => decide_eq_true_iff.symm) rfl rule (by decide)
      (by rw [runDisarmRule, toFin?_val r index]; exact if_neg defined)
  case noGroup =>
    exact takeRecord_form headed carried group (by decide) (by rw [runDisarmGroup, if_neg (by omega)]; rfl) rfl
  case group =>
    exact leavesWith (fun j => decide_eq_true_iff.symm) rfl group (by decide) (by rw [runDisarmGroup, if_pos low])
  case undefined =>
    have undefined : 2 ≤ armForm p := undefined
    exact ⟨takeRecord_badForm headed carried (by omega) (by omega),
      takeRecord_badForm headed carried (by omega) (by omega)⟩

/-! ## ARM (R91) -/

theorem atCycleReached_iff {number : Word} {x : Rule} : atCycleReached number x = true ↔
    ∃ n, x.fields.trigger = .atCycle n ∧ (number - n).toNat < 2 ^ 31 := by
  unfold atCycleReached cycleReached
  cases x.fields.trigger <;> simp

/-- An armed rule is triggered at once where it is IMMEDIATE and its lane is in play (R91, R94). -/
theorem armRule_eq (u : State) (x : Rule) :
    armRule u x = if x.fields.trigger = .immediate ∧ laneInPlay u x.fields.lane = true then
      (x.armed (lateRule u x)).trigger false else x.armed (lateRule u x) := by
  have takes : canTake u (x.armed (lateRule u x)) = true ↔ laneInPlay u x.fields.lane = true := by
    simp [canTake, Rule.armed]
  have fields : (x.armed (lateRule u x)).fields = x.fields := rfl
  rw [armRule, judgeImmediate_eq]
  simp only [takes, fields, and_comm]

theorem rule_armAll (u : State) (chosen : RuleId → Bool) (i : RuleId) :
    (armAll u chosen).1.rule i = if chosen i then armRule u (u.rule i) else u.rule i :=
  State.rule_mapRules u _ i

/-- Settles O54: either form arms the rules of its choice. -/
theorem armingReloadsRules : Obligations.ArmingReloadsRules := by
  intro s p rest headed carried u form refused armed arms
  have armed_eq (x : Rule) : armRule u x = armed x := by
    have late : lateRule u x =
        decide (∃ n, x.fields.trigger = .atCycle n ∧ (u.link.currentCycle - n).toNat < 2 ^ 31) := by
      rw [Bool.eq_iff_iff, decide_eq_true_iff, lateRule, atCycleReached_iff]
    rw [armRule_eq, late]
    rfl
  have armsWith {m : String} {other own : Nat} {run : Place → State → State × Answer} {row : Instr}
      {chosen : RuleId → Bool} {rules : List RuleId} (names : ruleNumbers.filter chosen = rules)
      (isRow : exec row s = takeRecord m (takesForm .arm other) (withForm own run) s)
      (same : form = own) (differ : own ≠ other) (ran : run p u = armAll u chosen) : arms row rules := by
    subst names
    have status : ((ruleNumbers.filter chosen).any fun i => lateRule u (u.rule i)) = true ↔
        ∃ r ∈ ruleNumbers.filter chosen, ∃ n, (u.rule r).fields.trigger = .atCycle n ∧
          (u.link.currentCycle - n).toNat < 2 ^ 31 := by
      simp only [List.any_eq_true, lateRule, atCycleReached_iff]
    refine ⟨(armAll u chosen).1, isRow.trans (takeRecord_form headed carried same differ ?_ ?_),
      fun r named => ?_, fun r unnamed => ?_, mapRules_eq_with u _⟩
    · refine ran.trans ?_
      simp only [armAll, status]
      rfl
    · exact (tickFrame_mapRules u _).cmd
    · rw [rule_armAll, if_pos (List.mem_filter.1 named).2, armed_eq]
    · rw [rule_armAll, if_neg fun taken => unnamed (List.mem_filter.2 ⟨mem_ruleNumbers r, taken⟩)]
  refine ⟨fun rule => ⟨fun high => ?noRule, fun r index => ⟨fun vacant => ?vacant, fun busy => ?busy,
      fun armable => ?rule⟩⟩,
    fun group => ⟨fun high => ?noGroup, fun low => ?group⟩, fun undefined => ?undefined⟩
  case noRule =>
    exact takeRecord_form headed carried rule (by decide) (by rw [runArmRule, toFin?_none high]; rfl) rfl
  case vacant =>
    exact takeRecord_form headed carried rule (by decide)
      (by rw [runArmRule, toFin?_val r index]; exact if_pos vacant) rfl
  case busy =>
    have defined : (u.rule r).state ≠ .vacant := by rintro vacant; simp [vacant] at busy
    exact takeRecord_form headed carried rule (by decide)
      (by rw [runArmRule, toFin?_val r index]; exact (if_neg defined).trans (if_pos ((busy_iff _).2 busy))) rfl
  case rule =>
    have defined : (u.rule r).state ≠ .vacant := by rintro vacant; simp [vacant] at armable
    have idle : ¬(u.rule r).state.busy = true := by rcases armable with h | h <;> simp [h, RuleState.busy]
    exact armsWith (filter_ruleNumbers_eq r) rfl rule (by decide)
      (by rw [runArmRule, toFin?_val r index]; exact (if_neg defined).trans (if_neg idle))
  case noGroup =>
    exact takeRecord_form headed carried group (by decide) (by rw [runArmGroup, if_neg (by omega)]; rfl) rfl
  case group =>
    refine armsWith ?_ rfl group (by decide) (by rw [runArmGroup, if_pos low])
    refine List.filter_congr fun r _ => ?_
    rw [Bool.eq_iff_iff, Bool.and_eq_true, decide_eq_true_iff, decide_eq_true_iff, armable_iff]
  case undefined =>
    have undefined : 2 ≤ armForm p := undefined
    exact ⟨takeRecord_badForm headed carried (by omega) (by omega),
      takeRecord_badForm headed carried (by omega) (by omega)⟩

end Sys2Proof.FaultRules
end

section
/-! PROOFS. The end of an activation, and the taking of all the ends that have fallen due (R94, R97, R99, R105,
R111; log 9, log 21). -/

namespace Sys2Proof.FaultRules

open Sys2Proof.Machine

/-! ## The end of an activation (R105) -/

/-- The end of an activation before its deliveries: the rule has left its chain, is counted, and its notice is
offered. -/
def ending (s : State) (i : RuleId) : State := offerRuleEvent ((leaveChains s i).modRule i Rule.ended) i .ended

section Ending

variable (s : State) (i : RuleId)

theorem endActivation_eq : endActivation s i =
    (deliverOnRule (ending s i) i .ended none).modRule i (judgeImmediate (deliverOnRule (ending s i) i .ended none)) :=
  rfl

@[simp] theorem rule_ending_self : (ending s i).rule i = (s.rule i).ended := by simp [ending]

theorem rule_ending_other {j : RuleId} (other : j ≠ i) : (ending s i).rule j = s.rule j := by
  simp [ending, State.rule_modRule, Ne.symm other]

@[simp] theorem lane_ending (l : LaneId) :
    (ending s i).lane l = { s.lane l with chain := (s.lane l).chain.erase i } := by simp [ending]

theorem ending_ret : (ending s i).ret = noticed s i 1 (countUp (s.rule i).activations) := by
  rw [ending, offerRuleEvent_ret, State.rule_modRule_same, rule_leaveChains]
  exact noticed_congr (t := (leaveChains s i).modRule i Rule.ended) (leaveChains_ret s i) (leaveChains_link s i)
    (fun l => by simp) (by simp [Rule.ended]) _ _

theorem canTake_ending (x : Rule) : canTake (ending s i) x = canTake s x := canTake_congr (fun l => by simp) x

theorem lane_endActivation (l : LaneId) :
    (endActivation s i).lane l = { s.lane l with chain := (s.lane l).chain.erase i } := by
  simp [endActivation_eq, deliverOnRule]

theorem endActivation_ret : (endActivation s i).ret = noticed s i 1 (countUp (s.rule i).activations) := by
  simp [endActivation_eq, deliverOnRule, ending_ret]

/-- The rules that wait for the end take their trigger; no other is touched (R97). -/
theorem rule_endActivation_other {j : RuleId} (other : j ≠ i) : (endActivation s i).rule j =
    if canTake s (s.rule j) = true ∧ (s.rule j).fields.trigger = .onRule i .ended then (s.rule j).trigger false
    else s.rule j := by
  rw [endActivation_eq, State.rule_modRule, if_neg (Ne.symm other), rule_deliverOnRule_none,
    rule_ending_other s i other, canTake_ending]

/-- The rule itself is triggered again at once where it is IMMEDIATE, or waits for its own end (R94, R97). -/
theorem rule_endActivation_self : (endActivation s i).rule i =
    if canTake s (s.rule i).ended = true ∧
      ((s.rule i).fields.trigger = .immediate ∨ (s.rule i).fields.trigger = .onRule i .ended) then
      (s.rule i).ended.trigger false
    else (s.rule i).ended := by
  have fields : (s.rule i).ended.fields = (s.rule i).fields := rfl
  have can (x : Rule) : canTake (deliverOnRule (ending s i) i .ended none) x = canTake s x :=
    canTake_congr (fun l => by simp [deliverOnRule]) x
  have triggered : canTake s ((s.rule i).ended.trigger false) = false := by simp [canTake, Rule.trigger]
  rw [endActivation_eq, State.rule_modRule_same, judgeImmediate_eq, can, rule_deliverOnRule_none,
    rule_ending_self, canTake_ending, fields]
  by_cases takes : canTake s (s.rule i).ended = true
  · by_cases waits : (s.rule i).fields.trigger = .onRule i .ended
    · simp [takes, waits, triggered]
    · simp [takes, waits, fields]
  · simp [takes]

end Ending

/-! ## What ends leave as it is -/

/-- Lanes differ in their chains alone, rules keep their records, and the Return Sender differs in its notices. -/
structure EndFrame (s t : State) : Prop where
  lane : ∀ l, t.lane l = { s.lane l with chain := (t.lane l).chain }
  fields : ∀ r, (t.rule r).fields = (s.rule r).fields
  codeOk : ∀ r, (t.rule r).codeOk = (s.rule r).codeOk
  ret : t.ret = { s.ret with notices := t.ret.notices, noticesDropped := t.ret.noticesDropped }

theorem EndFrame.refl (s : State) : EndFrame s s := ⟨fun _ => rfl, fun _ => rfl, fun _ => rfl, rfl⟩

theorem EndFrame.trans {s t u : State} (a : EndFrame s t) (b : EndFrame t u) : EndFrame s u where
  lane l := by rw [b.lane l, a.lane l]
  fields r := (b.fields r).trans (a.fields r)
  codeOk r := (b.codeOk r).trans (a.codeOk r)
  ret := by rw [b.ret, a.ret]

theorem noticed_eq_with (s : State) (i : RuleId) (event count : Nat) : noticed s i event count =
    { s.ret with
      notices := (noticed s i event count).notices
      noticesDropped := (noticed s i event count).noticesDropped } := by
  unfold noticed
  split
  · exact offerNotice_ret_eq_with s _ _
  · rfl

theorem rule_endActivation_record (s : State) (i r : RuleId) :
    ((endActivation s i).rule r).fields = (s.rule r).fields ∧
      ((endActivation s i).rule r).codeOk = (s.rule r).codeOk := by
  by_cases same : r = i
  · subst same
    rw [rule_endActivation_self]
    split <;> exact ⟨rfl, rfl⟩
  · rw [rule_endActivation_other s i same]
    split <;> exact ⟨rfl, rfl⟩

theorem endFrame_endActivation (s : State) (i : RuleId) : EndFrame s (endActivation s i) where
  lane l := by rw [lane_endActivation]
  fields r := (rule_endActivation_record s i r).1
  codeOk r := (rule_endActivation_record s i r).2
  ret := by rw [endActivation_ret, ← noticed_eq_with]

theorem endFrame_ends (ends : List RuleId) (s : State) : EndFrame s (ends.foldl endActivation s) := by
  induction ends generalizing s with
  | nil => exact .refl s
  | cons i rest ih => exact (endFrame_endActivation s i).trans (ih _)

/-- Together with the frame of ticks: only lanes, rules and notices differ. -/
theorem EndFrame.eq_with {s t : State} (frame : EndFrame s t) (tick : TickFrame s t) (dir : t.dir = s.dir)
    (latch : t.latch = s.latch) : t = { s with
      lanes := t.lanes
      rules := t.rules
      ret := { s.ret with notices := t.ret.notices, noticesDropped := t.ret.noticesDropped } } := by
  refine (eq_with_of_tickFrame tick dir latch).trans ?_
  rw [← frame.ret]

/-! ## Ends that have fallen due (log 9) -/

/-- Every delay that has run out ends. -/
def delaysEnded (s : State) : State := s.mapRules fun _ r => if r.delayEnds then endDelay r else r

theorem delayEnds_iff {x : Rule} :
    x.delayEnds = true ↔ x.state = .triggered ∧ x.delayCount = 0 ∧ x.attemptDue = false := by
  simp [Rule.delayEnds, and_assoc]

theorem rule_delaysEnded (s : State) (r : RuleId) :
    (delaysEnded s).rule r = if (s.rule r).delayEnds then endDelay (s.rule r) else s.rule r :=
  State.rule_mapRules s _ r

@[simp] theorem lane_delaysEnded (s : State) (l : LaneId) : (delaysEnded s).lane l = s.lane l :=
  State.lane_mapRules s _ l

theorem endFrame_delaysEnded (s : State) : EndFrame s (delaysEnded s) where
  lane l := by rw [lane_delaysEnded]
  fields r := by rw [rule_delaysEnded]; split <;> rfl
  codeOk r := by rw [rule_delaysEnded]; split <;> rfl
  ret := by rw [delaysEnded, State.mapRules_ret]

theorem endsDue_delaysEnded (s : State) : endsDue (delaysEnded s) = endsDue s := by
  have due (r : RuleId) : ((delaysEnded s).rule r).endDue = (s.rule r).endDue := by
    rw [rule_delaysEnded]
    split <;> rfl
  simp only [endsDue, lane_delaysEnded, due]

theorem unsettled_eq_false_iff {s : State} :
    unsettled s = false ↔ ∀ r, (s.rule r).endDue = false ∧ (s.rule r).delayEnds = false := by
  simp only [unsettled, List.any_eq_false, Vector.mem_toList_iff, Bool.or_eq_true, not_or, Bool.not_eq_true]
  constructor
  · exact fun none r => none _ (Vector.getElem_mem r.isLt)
  · intro none x mem
    obtain ⟨r, bound, rfl⟩ := Vector.getElem_of_mem mem
    exact none ⟨r, bound⟩

theorem endsDue_eq_nil {s : State} (none : ∀ r, (s.rule r).endDue = false) : endsDue s = [] := by
  simp [endsDue, none]

theorem delaysEnded_self {s : State} (none : ∀ r, (s.rule r).delayEnds = false) : delaysEnded s = s :=
  Conversion.mapRules_self fun r => by simp [none r]

/-- The ends that have fallen due are taken delays first, then durations, also where there are none. -/
theorem settle_eq (s : State) : settle s = (endsDue s).foldl endActivation (delaysEnded s) := by
  by_cases waits : unsettled s = true
  · rw [settle, if_pos waits, ← endsDue_delaysEnded s]
    rfl
  · have none := unsettled_eq_false_iff.1 (Bool.not_eq_true _ ▸ waits)
    rw [settle, if_neg waits, endsDue_eq_nil fun r => (none r).1, delaysEnded_self fun r => (none r).2]
    rfl

theorem endFrame_settle (s : State) : EndFrame s (settle s) := by
  rw [settle_eq]
  exact (endFrame_delaysEnded s).trans (endFrame_ends _ _)

/-- A single delay that has run out ends as its row takes it. -/
theorem delaysEnded_single {s : State} {r : RuleId} (ends : (s.rule r).delayEnds = true)
    (alone : ∀ j, j ≠ r → (s.rule j).delayEnds = false) : delaysEnded s = s.modRule r endDelay := by
  rw [modRule_eq_mapRules]
  refine mapRules_congr fun j => ?_
  by_cases same : j = r
  · subst same
    simp [ends]
  · simp [same, alone j same]

/-- A single duration that has run out, in the one place of the one chain that holds its rule. -/
theorem endsDue_single {s : State} {r : RuleId} {l : LaneId} (due : (s.rule r).endDue = true)
    (alone : ∀ j, j ≠ r → (s.rule j).endDue = false) (once : (s.lane l).chain.count r = 1)
    (elsewhere : ∀ k, k ≠ l → r ∉ (s.lane k).chain) : endsDue s = [r] := by
  have test : (fun i => (s.rule i).endDue) = fun i => decide (i = r) := by
    funext i
    by_cases same : i = r
    · subst same
      simpa using due
    · simpa [same] using alone i same
  have ends (k : LaneId) :
      ((s.lane k).chain.filter fun i => (s.rule i).endDue) = if k = l then [r] else [] := by
    rw [test, List.filter_eq]
    split
    · next same => rw [same, once, List.replicate_one]
    · next other => rw [List.count_eq_zero.2 (elsewhere k other), List.replicate_zero]
  have collected (lanes : List LaneId) :
      (lanes.flatMap fun k => if k = l then [r] else []) = List.replicate (lanes.count l) r := by
    induction lanes with
    | nil => rfl
    | cons k lanes ih =>
      rw [List.flatMap_cons, ih, List.count_cons]
      split <;> simp_all [List.replicate_succ]
  have lanes : laneNumbers.count l = 1 := List.count_eq_one_of_mem (List.nodup_finRange 24) (List.mem_finRange l)
  simp only [endsDue, ends, collected, lanes, List.replicate_one]

/-! ## The rows of ends -/

theorem exec_ruleDelayEnd {s : State} {r : RuleId} (ends : (s.rule r).delayEnds = true) :
    exec (.ruleDelayEnd r) s = .next (s.modRule r endDelay) := whenPossible_of _ _ ends

theorem exec_ruleDurationEnd {s : State} {r : RuleId} (active : (s.rule r).state = .active)
    (due : (s.rule r).endDue = true) : exec (.ruleDurationEnd ⟨r, none⟩) s = .next (endActivation s r) :=
  whenPossible_of _ _ (by simp [active, due])

/-- Settles O18. The closed form of `settle` gives every clause. -/
theorem settledStateIsUnchanged : Obligations.SettledStateIsUnchanged := by
  intro s t delayEnds
  have delayEnds_iff (r : RuleId) : (s.rule r).delayEnds = true ↔ delayEnds r := delayEnds_iff
  have none_iff (r : RuleId) : (s.rule r).delayEnds = false ↔ ¬delayEnds r := by
    rw [← delayEnds_iff, Bool.not_eq_true]
  have frame : EndFrame s t := endFrame_settle s
  refine ⟨fun none => ?nothing, fun r ends alone none => ?delay,
    fun r l active due none alone once elsewhere => ?duration, fun u made only => ?several,
    fun r v active due => exec_ruleDurationEnd active due, frame.lane,
    fun r => ⟨frame.fields r, frame.codeOk r⟩,
    frame.eq_with (tickFrame_settle s) (settle_dir s) (settle_latch s)⟩
  case nothing =>
    refine settle_of_not_unsettled (unsettled_eq_false_iff.2 fun r => ⟨(none r).1, (none_iff r).2 ?_⟩)
    rintro ⟨triggered, zero, notDue⟩
    simp [(none r).2 triggered zero] at notDue
  case delay =>
    have single : t = s.modRule r endDelay := by
      refine (settle_eq s).trans ?_
      rw [endsDue_eq_nil none, delaysEnded_single ((delayEnds_iff r).2 ends) fun j other =>
        (none_iff j).2 (alone j other)]
      rfl
    rw [single, exec_ruleDelayEnd ((delayEnds_iff r).2 ends)]
  case duration =>
    have single : t = endActivation s r := by
      refine (settle_eq s).trans ?_
      rw [endsDue_single due alone once elsewhere, delaysEnded_self fun j => (none_iff j).2 (none j)]
      rfl
    rw [single, exec_ruleDurationEnd active due]
  case several =>
    have rules : u.rules = (delaysEnded s).rules := rules_ext fun r => by
      rw [rule_delaysEnded]
      split
      · next ends => exact (made r).1 ((delayEnds_iff r).1 ends)
      · next ends => exact (made r).2 fun h => ends ((delayEnds_iff r).2 h)
    have same : u = delaysEnded s := by
      rw [only, rules]
      exact (mapRules_eq_with s _).symm
    rw [same]
    exact settle_eq s

end Sys2Proof.FaultRules
end

section
/-! PROOFS. The rows of ends, and step 3 of a tick: the tests of the chain, the draws of its gates, and the counts
(R99, R100, R105 to R108, R135; log 35). -/

namespace Sys2Proof.FaultRules

open Sys2Proof.Machine

/-! ## The draws of a chain (R106, R107) -/

/-- How many of the rules draw: those with INTERMITTENCY above 0. -/
def drawsOf (level : RuleId → Nat) (rules : List RuleId) : Nat := (rules.filter fun i => level i ≠ 0).length

/-- The gate of a rule of this level, where the generator stands at `g` after the draw. -/
def gateOf (level : Nat) (g : BitVec 16) : Bool := decide (level = 0) || decide (level ≤ g.toNat / 256)

theorem repeat_after_step {α : Type} (f : α → α) (n : Nat) (a : α) :
    Nat.repeat f n (f a) = Nat.repeat f (n + 1) a := by
  induction n with
  | zero => rfl
  | succ n ih => exact congrArg f ih

section Draws

variable (level : RuleId → Nat)

theorem drawsOf_cons_zero {i : RuleId} (rest : List RuleId) (zero : level i = 0) :
    drawsOf level (i :: rest) = drawsOf level rest := by simp [drawsOf, zero]

theorem drawsOf_cons_pos {i : RuleId} (rest : List RuleId) (pos : level i ≠ 0) :
    drawsOf level (i :: rest) = drawsOf level rest + 1 := by simp [drawsOf, pos]

theorem drawGates_cons_zero {i : RuleId} (rest : List RuleId) (g : BitVec 16) (zero : level i = 0) :
    drawGates level (i :: rest) g = ((i, true) :: (drawGates level rest g).1, (drawGates level rest g).2) := by
  simp [drawGates, zero]

theorem drawGates_cons_pos {i : RuleId} (rest : List RuleId) (g : BitVec 16) (pos : level i ≠ 0) :
    drawGates level (i :: rest) g = ((i, decide (level i ≤ (gateStep g).toNat / 256)) ::
      (drawGates level rest (gateStep g)).1, (drawGates level rest (gateStep g)).2) := by
  rw [drawGates, if_neg pos]
  rfl

theorem length_drawGates (chain : List RuleId) (g : BitVec 16) :
    (drawGates level chain g).1.length = chain.length := by
  induction chain generalizing g with
  | nil => rfl
  | cons i rest ih =>
    by_cases zero : level i = 0
    · simp [drawGates_cons_zero level rest g zero, ih]
    · simp [drawGates_cons_pos level rest g zero, ih]

/-- The generator has made a step for each rule that draws. -/
theorem drawGates_snd (chain : List RuleId) (g : BitVec 16) :
    (drawGates level chain g).2 = Nat.repeat gateStep (drawsOf level chain) g := by
  induction chain generalizing g with
  | nil => rfl
  | cons i rest ih =>
    by_cases zero : level i = 0
    · rw [drawGates_cons_zero level rest g zero, drawsOf_cons_zero level rest zero, ih]
    · rw [drawGates_cons_pos level rest g zero, drawsOf_cons_pos level rest zero, ih, repeat_after_step]

/-- The gate at each place of the chain is that of the generator after the draws up to this place. -/
theorem drawGates_getElem? {chain : List RuleId} {n : Nat} {i : RuleId} (standing : chain[n]? = some i)
    (g : BitVec 16) :
    (drawGates level chain g).1[n]? =
      some (i, gateOf (level i) (Nat.repeat gateStep (drawsOf level (chain.take (n + 1))) g)) := by
  induction chain generalizing n g with
  | nil => simp at standing
  | cons j rest ih =>
    rw [List.take_succ_cons]
    cases n with
    | zero =>
      obtain rfl : j = i := by simpa using standing
      by_cases zero : level j = 0
      · simp [drawGates_cons_zero level rest g zero, gateOf, zero]
      · simp [drawGates_cons_pos level rest g zero, gateOf, zero, drawsOf, Nat.repeat]
    | succ n =>
      have later : rest[n]? = some i := by simpa using standing
      by_cases zero : level j = 0
      · rw [drawGates_cons_zero level rest g zero, drawsOf_cons_zero level _ zero, List.getElem?_cons_succ, ih later]
      · rw [drawGates_cons_pos level rest g zero, drawsOf_cons_pos level _ zero, List.getElem?_cons_succ, ih later,
          repeat_after_step]

end Draws

/-! ## The counts (R99, R100) -/

/-- A TICKS delay of lane `l` that counts the tick. -/
def DelayCounts (l : LaneId) (x : Rule) : Prop :=
  x.fields.unit = .ticks ∧ x.state = .triggered ∧ x.fields.lane = l.val ∧ x.baseSeen = true ∧ 0 < x.delayCount

/-- A TICKS duration of the chain that counts the tick. -/
def DurationCounts (inChain : Bool) (x : Rule) : Prop :=
  x.fields.unit = .ticks ∧ x.state = .active ∧ inChain = true ∧ 0 < x.durationCount

section Counts

variable {l : LaneId} {inChain : Bool} {x : Rule}

theorem countTick_delay (h : DelayCounts l x) : x.countTick l inChain = { x with delayCount := x.delayCount - 1 } := by
  obtain ⟨unit, state, lane, base, pos⟩ := h
  simp [Rule.countTick, unit, state, lane, base, pos]

theorem countTick_duration (h : DurationCounts inChain x) : x.countTick l inChain =
    { x with durationCount := x.durationCount - 1, endDue := decide (x.durationCount = 1) } := by
  obtain ⟨unit, state, chain, pos⟩ := h
  simp [Rule.countTick, unit, state, chain, pos]

theorem countTick_other (noDelay : ¬DelayCounts l x) (noDuration : ¬DurationCounts inChain x) :
    x.countTick l inChain = x := by
  unfold Rule.countTick
  split
  · next unit =>
    split
    · next delays => exact absurd ⟨unit, by simpa [and_assoc] using delays⟩ noDelay
    · split
      · next lasts =>
        simp only [Bool.and_eq_true, decide_eq_true_eq] at lasts
        obtain ⟨⟨chain, state⟩, pos⟩ := lasts
        exact absurd ⟨unit, state, chain, pos⟩ noDuration
      · rfl
  · rfl

end Counts

/-! ## Step 3 -/

section Step3

variable {s : State} {l : LaneId}

/-- The first rule of the chain that fails its check ends the tick (R108, R135). -/
theorem step3_fails {before later : List RuleId} {r : RuleId} (chain : (s.lane l).chain = before ++ r :: later)
    (pass : ∀ i ∈ before, (s.rule i).codeOk = true) (fails : (s.rule r).codeOk = false) :
    step3 s l = .endedTick (vacate s r) (.ruleCheck l r) := by
  have found : (s.lane l).chain.find? (fun i => !(s.rule i).codeOk) = some r := by
    rw [chain, List.find?_append, List.find?_eq_none.2 (by simpa using pass), List.find?_cons]
    simp [fails]
  simp only [step3, found]

/-- The levels of the rules' gates. -/
def levels (s : State) (i : RuleId) : Nat := (s.rule i).fields.intermittency

/-- The part after the draws and the counts of a chain that passes. -/
def counted (s : State) (l : LaneId) : State :=
  (s.modLane l fun x => { x with gate := (drawGates (levels s) (s.lane l).chain (s.lane l).gate).2 }).mapRules
    fun i r => r.countTick l ((s.lane l).chain.contains i)

theorem step3_passes (pass : ∀ i ∈ (s.lane l).chain, (s.rule i).codeOk = true) :
    step3 s l = .goOn (counted s l) (drawGates (levels s) (s.lane l).chain (s.lane l).gate).1 := by
  have found : (s.lane l).chain.find? (fun i => !(s.rule i).codeOk) = none :=
    List.find?_eq_none.2 (by simpa using pass)
  simp only [step3, found]
  rfl

theorem rule_counted (i : RuleId) :
    (counted s l).rule i = (s.rule i).countTick l ((s.lane l).chain.contains i) := by
  simp [counted]

theorem lane_counted (k : LaneId) : (counted s l).lane k = if k = l then
    { s.lane l with gate := (drawGates (levels s) (s.lane l).chain (s.lane l).gate).2 } else s.lane k := by
  simp only [counted, State.lane_mapRules, State.lane_modLane, eq_comm]

theorem counted_eq_with (s : State) (l : LaneId) :
    counted s l = { s with lanes := (counted s l).lanes, rules := (counted s l).rules } := by
  rw [counted, mapRules_eq_with]
  rfl

end Step3

/-- Settles O24. The ends are the rows' closed forms; a tick that passes its tests draws and counts. -/
theorem ruleEndsTakeTheirTime : Obligations.RuleEndsTakeTheirTime := by
  refine ⟨?ends, ?step3⟩
  case ends =>
    intro r s x triggered takes
    refine ⟨fun isTriggered zero notDue => exec_ruleDelayEnd (delayEnds_iff.2 ⟨isTriggered, zero, notDue⟩), ?_⟩
    intro active due left ended
    have takes_iff (y : Rule) : canTake s y = true ↔ takes y := canTake_iff
    have self := rule_endActivation_self s r
    have others (j : RuleId) := rule_endActivation_other s r (j := j)
    have ret := endActivation_ret s r
    simp only [takes_iff] at self others
    refine ⟨endActivation s r, exec_ruleDurationEnd active due, fun again => self.trans (if_pos again),
      fun once => self.trans (if_neg once),
      fun j other => ⟨fun taken => (others j other).trans (if_pos taken),
        fun passed => (others j other).trans (if_neg passed)⟩,
      lane_endActivation s r, fun silent => ret.trans (if_neg (by simpa using silent)),
      fun told => ret.trans (if_pos told),
      (endFrame_endActivation s r).eq_with (tickFrame_endActivation s r) (endActivation_dir s r)
        (endActivation_latch s r)⟩
  case step3 =>
    intro l s x
    refine ⟨fun before r later chain pass fails => ?fails, fun pass => ?passes⟩
    case fails =>
      obtain ⟨self, others, lane, frame⟩ := vacated_vacate s r
      exact ⟨_, step3_fails chain pass fails, self, others, lane, frame⟩
    case passes =>
      intro draws
      have all : draws x.chain.length = drawsOf (levels s) x.chain := by
        simp only [draws, List.take_length]
        rfl
      have others (k : LaneId) (other : k ≠ l) : (counted s l).lane k = s.lane k :=
        (lane_counted k).trans (if_neg other)
      refine ⟨_, _, step3_passes pass, length_drawGates _ _ _, fun n i standing => drawGates_getElem? _ standing _,
        ?_, others, fun i => ?_, counted_eq_with s l⟩
      · rw [all, lane_counted, if_pos rfl, drawGates_snd]
      · intro y delays lasts
        have member : i ∈ x.chain ↔ x.chain.contains i = true := List.contains_iff_mem.symm
        have lasts_iff : lasts ↔ DurationCounts (x.chain.contains i) y := by
          simp only [lasts, DurationCounts, member]
        refine ⟨fun h => (rule_counted i).trans (countTick_delay h),
          fun h => (rule_counted i).trans (countTick_duration (lasts_iff.1 h)),
          fun noDelay noDuration =>
            (rule_counted i).trans (countTick_other noDelay fun h => noDuration (lasts_iff.2 h))⟩

end Sys2Proof.FaultRules
end

section
/-! PROOFS. Step 2 of a tick: the triggers it offers, the order of its attempts, and what each attempt leaves (R93,
R94, R96, R97, R101 to R104, R108, R111; log 21). -/

namespace Sys2Proof.FaultRules

open Sys2Proof.Machine

theorem lanes_ext {s t : State} (h : ∀ l, t.lane l = s.lane l) : t.lanes = s.lanes :=
  Vector.ext fun l bound => h ⟨l, bound⟩

/-! ## The place of a new rule (R102) -/

section Insertion

variable (priority : RuleId → Nat)

theorem chainInsert_perm (i : RuleId) (chain : List RuleId) : (chainInsert priority i chain).Perm (i :: chain) := by
  induction chain with
  | nil => exact .refl _
  | cons j rest ih =>
    rw [chainInsert]
    split
    · exact (ih.cons j).trans (.swap i j rest)
    · exact .refl _

/-- After every rule of equal or lower PRIORITY, before every higher. -/
theorem chainInsert_between {i : RuleId} {before after : List RuleId}
    (low : ∀ j ∈ before, priority j ≤ priority i) (high : ∀ j ∈ after.head?, priority i < priority j) :
    chainInsert priority i (before ++ after) = before ++ i :: after := by
  induction before with
  | nil =>
    cases after with
    | nil => rfl
    | cons j rest => exact if_neg (Nat.not_le.2 (high j rfl))
  | cons j before ih =>
    obtain ⟨first, others⟩ := List.forall_mem_cons.1 low
    rw [List.cons_append, chainInsert, if_pos first, ih others, List.cons_append]

/-- The order of attempts: PRIORITY ascending, then index ascending (R101). -/
def Before (i j : RuleId) : Prop := priority i < priority j ∨ priority i = priority j ∧ i < j

theorem pairwise_chainInsert {i : RuleId} {sorted : List RuleId} (ordered : sorted.Pairwise (Before priority))
    (below : ∀ j ∈ sorted, j < i) : (chainInsert priority i sorted).Pairwise (Before priority) := by
  induction sorted with
  | nil => exact List.pairwise_singleton _ _
  | cons j rest ih =>
    obtain ⟨first, later⟩ := List.pairwise_cons.1 ordered
    obtain ⟨belowFirst, belowLater⟩ := List.forall_mem_cons.1 below
    rw [chainInsert]
    split
    · next le =>
      refine List.pairwise_cons.2 ⟨fun k mem => ?_, ih later belowLater⟩
      rcases List.mem_cons.1 ((chainInsert_perm priority i rest).mem_iff.1 mem) with rfl | mem
      · exact (Nat.lt_or_eq_of_le le).imp_right fun same => ⟨same, belowFirst⟩
      · exact first k mem
    · next gt =>
      refine List.pairwise_cons.2 ⟨fun k mem => .inl ?_, ordered⟩
      rcases List.mem_cons.1 mem with rfl | mem
      · exact Nat.not_le.1 gt
      · rcases first k mem with less | ⟨same, -⟩ <;> omega

/-- Rules inserted one after another, by rising index, stand in the order of attempts. -/
theorem foldl_chainInsert {rules sorted : List RuleId} (rising : rules.Pairwise (· < ·))
    (ordered : sorted.Pairwise (Before priority)) (below : ∀ j ∈ sorted, ∀ i ∈ rules, j < i) :
    (rules.foldl (fun acc i => chainInsert priority i acc) sorted).Pairwise (Before priority) ∧
      (rules.foldl (fun acc i => chainInsert priority i acc) sorted).Perm (rules ++ sorted) := by
  induction rules generalizing sorted with
  | nil => exact ⟨ordered, .refl _⟩
  | cons i rest ih =>
    obtain ⟨first, later⟩ := List.pairwise_cons.1 rising
    have perm := chainInsert_perm priority i sorted
    have below' : ∀ j ∈ chainInsert priority i sorted, ∀ k ∈ rest, j < k := by
      intro j mem k later
      rcases List.mem_cons.1 (perm.mem_iff.1 mem) with rfl | mem
      · exact first k later
      · exact below j mem k (List.mem_cons_of_mem _ later)
    have placed := pairwise_chainInsert priority ordered fun j mem => below j mem i List.mem_cons_self
    obtain ⟨pairwise, rearranged⟩ := ih later placed below'
    exact ⟨pairwise, (rearranged.trans (perm.append_left rest)).trans List.perm_middle⟩

end Insertion

/-! ## The attempts that are due (R101) -/

theorem attemptFalls_iff {s : State} {l : LaneId} {i : RuleId} : attemptFalls s l i = true ↔
    (s.rule i).state = .triggered ∧ (s.rule i).attemptDue = true ∧ (s.rule i).fields.lane = l.val := by
  simp [attemptFalls, and_assoc]

theorem rising_ruleNumbers : ruleNumbers.Pairwise (· < ·) := List.pairwise_lt_finRange 256

theorem attemptsDue_spec (s : State) (l : LaneId) :
    (attemptsDue s l).Pairwise (Before fun j => (s.rule j).fields.priority) ∧
      (attemptsDue s l).Perm (ruleNumbers.filter (attemptFalls s l)) := by
  have sorted := foldl_chainInsert (fun j => (s.rule j).fields.priority) (sorted := [])
    (rising_ruleNumbers.filter (attemptFalls s l)) .nil (by simp)
  rwa [List.append_nil] at sorted

theorem nodup_attemptsDue (s : State) (l : LaneId) : (attemptsDue s l).Nodup :=
  (attemptsDue_spec s l).2.nodup_iff.2 (nodup_ruleNumbers.filter _)

theorem mem_attemptsDue {s : State} {l : LaneId} {i : RuleId} :
    i ∈ attemptsDue s l ↔ attemptFalls s l i = true := by
  simp [(attemptsDue_spec s l).2.mem_iff]

/-! ## Triggers of a tick (R93, R96) -/

theorem markHits_iff {tag mark : Option Nat} :
    markHits tag mark = true ↔ ∃ m, mark = some m ∧ (tag = none ∨ tag = some m) := by
  cases mark <;> cases tag <;> simp [markHits]

theorem levelHits_iff {t : Int} {edge : Edge} {prev : Option Int} {e : Int} : levelHits t edge prev e = true ↔
    ∃ p, prev = some p ∧ ((edge ≠ .falling ∧ p < t ∧ t ≤ e) ∨ (edge ≠ .rising ∧ t ≤ p ∧ e < t)) := by
  cases prev with
  | none => simp [levelHits]
  | some p => cases edge <;> simp [levelHits]

theorem watchHits_iff {l : LaneId} {prev : Option Int} {e : Int} {mark : Option Nat} {y : Rule} :
    watchHits l prev e mark y = true ↔ y.fields.watch = l.val ∧
      ((∃ tag m, y.fields.trigger = .onMark tag ∧ mark = some m ∧ (tag = none ∨ tag = some m)) ∨
        ∃ t edge p, y.fields.trigger = .onLevel t edge ∧ prev = some p ∧
          ((edge ≠ .falling ∧ p < t ∧ t ≤ e) ∨ (edge ≠ .rising ∧ t ≤ p ∧ e < t))) := by
  rw [watchHits, Bool.and_eq_true, decide_eq_true_eq]
  refine and_congr_right fun _ => ?_
  cases y.fields.trigger with
  | onMark tag => simp [markHits_iff]
  | onLevel t edge => simp [levelHits_iff]
  | _ => simp

/-- The part when step 2's attempts begin on a tick that presents a code. -/
def offered (s : State) (l : LaneId) (e : Int) (mark : Option Nat) : State :=
  markBase
    ((offerTrigger s (some l) (watchHits l (s.lane l).prev e mark)).modLane l fun x => { x with prev := some e }) l

theorem rule_markBase (s : State) (l : LaneId) (r : RuleId) : (markBase s l).rule r =
    if (s.rule r).state = .triggered ∧ (s.rule r).fields.lane = l.val then { s.rule r with baseSeen := true }
    else s.rule r := by
  simp [markBase]

section Offered

variable (s : State) (l : LaneId) (e : Int) (mark : Option Nat)

theorem lane_offered (k : LaneId) : (offered s l e mark).lane k =
    if k = l then { s.lane l with prev := some e } else s.lane k := by
  simp only [offered, markBase, State.lane_mapRules, State.lane_modLane, lane_offerTrigger, eq_comm]

/-- A rule that takes the trigger has its base tick at this tick if it is one of the lane's. -/
theorem rule_offered (r : RuleId) : (offered s l e mark).rule r =
    if canTake s (s.rule r) = true ∧ watchHits l (s.lane l).prev e mark (s.rule r) = true then
      (s.rule r).trigger (decide ((s.rule r).fields.lane = l.val))
    else if (s.rule r).state = .triggered ∧ (s.rule r).fields.lane = l.val then { s.rule r with baseSeen := true }
    else s.rule r := by
  rw [offered, rule_markBase, State.rule_modLane, rule_offerTrigger_some]
  by_cases takes : canTake s (s.rule r) = true ∧ watchHits l (s.lane l).prev e mark (s.rule r) = true
  · rw [if_pos takes, if_pos takes]
    by_cases own : (s.rule r).fields.lane = l.val <;> simp [Rule.trigger, own]
  · rw [if_neg takes, if_neg takes]

theorem offered_eq_with : offered s l e mark =
    { s with lanes := (offered s l e mark).lanes, rules := (offered s l e mark).rules } := by
  rw [offered, markBase, mapRules_eq_with, offerTrigger, mapRules_eq_with s]
  rfl

end Offered

/-! ## One attempt (R102 to R104) -/

theorem attemptSucceeds_iff {s : State} {l : LaneId} {i : RuleId} : attemptSucceeds s l i = true ↔
    (s.lane l).chain.length < 8 ∧
      (classOf (s.rule i).fields.action = .time →
        ∀ j ∈ (s.lane l).chain, classOf (s.rule j).fields.action ≠ .time) ∧
      (classOf (s.rule i).fields.action = .frame → (s.lane l).config.portKind = .frame) := by
  simp only [attemptSucceeds, Bool.and_eq_true, and_assoc, decide_eq_true_iff]
  refine and_congr Iff.rfl ?_
  cases classOf (s.rule i).fields.action <;> simp

/-- A rule stands in the chain of a lane. -/
def entered (s : State) (l : LaneId) (i : RuleId) : State :=
  s.modLane l fun x => { x with chain := chainInsert (fun j => (s.rule j).fields.priority) i x.chain }

/-- An attempt that succeeds, before its delivery: the rule stands in the chain, is ACTIVE, and its notice is
offered. -/
def joined (s : State) (l : LaneId) (i : RuleId) : State :=
  offerRuleEvent ((entered s l i).modRule i Rule.activated) i .active

section Attempts

variable (s : State) (l : LaneId) (i : RuleId)

theorem activate_fst : (activate s l i).1 = deliverOnRule (joined s l i) i .active (some l) := rfl

theorem activate_snd : (activate s l i).2 =
    ruleNumbers.filter fun j => !attemptFalls (joined s l i) l j && attemptFalls (activate s l i).1 l j := by
  unfold activate
  rfl

@[simp] theorem rule_entered (j : RuleId) : (entered s l i).rule j = s.rule j := rfl

theorem lane_entered (k : LaneId) : (entered s l i).lane k = if k = l then
    { s.lane l with chain := chainInsert (fun j => (s.rule j).fields.priority) i (s.lane l).chain } else s.lane k := by
  simp only [entered, State.lane_modLane, eq_comm]

@[simp] theorem rule_joined_self : (joined s l i).rule i = (s.rule i).activated := by simp [joined]

theorem rule_joined_other {j : RuleId} (other : j ≠ i) : (joined s l i).rule j = s.rule j := by
  simp [joined, State.rule_modRule, Ne.symm other]

theorem lane_joined (k : LaneId) : (joined s l i).lane k = if k = l then
    { s.lane l with chain := chainInsert (fun j => (s.rule j).fields.priority) i (s.lane l).chain } else s.lane k := by
  rw [joined, lane_offerRuleEvent, State.lane_modRule, lane_entered]

theorem canTake_joined (x : Rule) : canTake (joined s l i) x = canTake s x := by
  refine canTake_congr (fun k => ?_) x
  rw [lane_joined]
  split
  · next same => rw [same]
  · rfl

theorem joined_ret : (joined s l i).ret = noticed s i 0 0 := by
  rw [joined, offerRuleEvent_ret]
  refine noticed_congr (s := s) (t := (entered s l i).modRule i Rule.activated) rfl rfl (fun k => ?_)
    (by simp [Rule.activated]) _ _
  rw [State.lane_modRule, lane_entered]
  split
  · next same => rw [same]
  · rfl

theorem rule_activate_self : ((activate s l i).1).rule i = (s.rule i).activated := by
  have active : canTake (joined s l i) (s.rule i).activated = false := by simp [canTake, Rule.activated]
  rw [activate_fst, rule_deliverOnRule_some, rule_joined_self, if_neg (by simp [active])]

theorem rule_activate_other {j : RuleId} (other : j ≠ i) : ((activate s l i).1).rule j =
    if canTake s (s.rule j) = true ∧ (s.rule j).fields.trigger = .onRule i .active then
      (s.rule j).trigger (decide ((s.rule j).fields.lane = l.val))
    else s.rule j := by
  rw [activate_fst, rule_deliverOnRule_some, rule_joined_other s l i other, canTake_joined]

theorem lane_activate (k : LaneId) : ((activate s l i).1).lane k = if k = l then
    { s.lane l with chain := chainInsert (fun j => (s.rule j).fields.priority) i (s.lane l).chain } else s.lane k := by
  rw [activate_fst, deliverOnRule, lane_offerTrigger, lane_joined]

theorem activate_eq_with : (activate s l i).1 = { s with
    lanes := (activate s l i).1.lanes, rules := (activate s l i).1.rules, ret := noticed s i 0 0 } := by
  have ret : (activate s l i).1.ret = noticed s i 0 0 := by
    rw [activate_fst, deliverOnRule, offerTrigger_ret, joined_ret]
  refine (eq_with_of_tickFrame (tickFrame_activate s l i) ?_ ?_).trans (by rw [ret])
  · simp [activate_fst, deliverOnRule, joined, entered, offerRuleEvent_dir]
  · simp [activate_fst, deliverOnRule, joined, entered, offerRuleEvent_latch]

/-- An attempt that fails, before an IMMEDIATE trigger is judged. -/
def missedState : State := offerRuleEvent (s.modRule i Rule.missedAttempt) i .missed

theorem missAttempt_eq : missAttempt s i = (missedState s i).modRule i (judgeImmediate (missedState s i)) := rfl

@[simp] theorem lane_missedState (k : LaneId) : (missedState s i).lane k = s.lane k := by simp [missedState]

theorem rule_missAttempt_self : (missAttempt s i).rule i =
    if canTake s (s.rule i).missedAttempt = true ∧ (s.rule i).fields.trigger = .immediate then
      (s.rule i).missedAttempt.trigger false
    else (s.rule i).missedAttempt := by
  have missed : (missedState s i).rule i = (s.rule i).missedAttempt := by simp [missedState]
  have fields : (s.rule i).missedAttempt.fields = (s.rule i).fields := rfl
  have can (x : Rule) : canTake (missedState s i) x = canTake s x := canTake_congr (fun k => by simp) x
  rw [missAttempt_eq, State.rule_modRule_same, judgeImmediate_eq, missed, can, fields]

theorem rule_missAttempt_other {j : RuleId} (other : j ≠ i) : (missAttempt s i).rule j = s.rule j := by
  simp [missAttempt_eq, missedState, State.rule_modRule, Ne.symm other]

theorem missAttempt_eq_with : missAttempt s i =
    { s with rules := (missAttempt s i).rules, ret := noticed s i 2 (countUp (s.rule i).missed) } := by
  have lanes : (missAttempt s i).lanes = s.lanes := lanes_ext fun k => by simp [missAttempt_eq]
  have ret : (missAttempt s i).ret = noticed s i 2 (countUp (s.rule i).missed) := by
    rw [missAttempt_eq, State.modRule_ret, missedState, offerRuleEvent_ret, State.rule_modRule_same]
    exact noticed_congr (s := s) (t := s.modRule i Rule.missedAttempt) rfl rfl (fun _ => rfl)
      (by simp [Rule.missedAttempt]) _ _
  refine (eq_with_of_tickFrame (tickFrame_missAttempt s i) ?_ ?_).trans (by rw [lanes, ret])
  · simp [missAttempt_eq, missedState, offerRuleEvent_dir]
  · simp [missAttempt_eq, missedState, offerRuleEvent_latch]

end Attempts

/-! ## The run of the attempts (R101, R108) -/

section Run

variable {s : State} {l : LaneId} {r : RuleId}

theorem runAttempts_fails (fuel : Nat) (todo done : List RuleId) (fails : (s.rule r).codeOk = false) :
    runAttempts l (fuel + 1) (r :: todo) done s = .endedTick (vacate s r) (.ruleCheck l r) := by
  simp [runAttempts, fails]

theorem runAttempts_misses (fuel : Nat) (todo done : List RuleId) (pass : (s.rule r).codeOk = true)
    (noRoom : attemptSucceeds s l r = false) : runAttempts l (fuel + 1) (r :: todo) done s =
      runAttempts l fuel todo (r :: done) (missAttempt s r) := by
  simp [runAttempts, pass, noRoom]

/-- The rules that an attempt makes due on the way, but for those attempted or waiting already. -/
def dueOnTheWay (s : State) (l : LaneId) (r : RuleId) (todo done : List RuleId) : List RuleId :=
  (activate s l r).2.filter fun j => !(r :: done).contains j && !todo.contains j

theorem runAttempts_succeeds (fuel : Nat) (todo done : List RuleId) (pass : (s.rule r).codeOk = true)
    (room : attemptSucceeds s l r = true) : runAttempts l (fuel + 1) (r :: todo) done s =
      runAttempts l fuel (todo ++ dueOnTheWay s l r todo done) (r :: done) (activate s l r).1 := by
  rw [runAttempts, if_pos pass, if_pos room]
  rfl

theorem rising_dueOnTheWay (todo done : List RuleId) : (dueOnTheWay s l r todo done).Pairwise (· < ·) := by
  rw [dueOnTheWay, activate_snd]
  exact (rising_ruleNumbers.filter _).filter _

theorem mem_dueOnTheWay {todo done : List RuleId} {j : RuleId} : j ∈ dueOnTheWay s l r todo done ↔
    attemptFalls (activate s l r).1 l j = true ∧ ¬attemptFalls s l j = true ∧ j ≠ r ∧ j ∉ done ∧ j ∉ todo := by
  by_cases same : j = r
  · subst same
    simp [dueOnTheWay]
  · have before : attemptFalls (joined s l r) l j = attemptFalls s l j := by
      simp only [attemptFalls, rule_joined_other s l r same]
    simp [dueOnTheWay, activate_snd, before, same, and_comm, and_assoc]

end Run

/-! ## Step 2 -/

/-- Settles O57: the triggers of the tick, the order of its attempts, their run, and one attempt. -/
theorem attemptsJoinTheChain : Obligations.AttemptsJoinTheChain := by
  refine ⟨?triggers, fun s l => ?order, ?run, ?attempt⟩
  case triggers =>
    intro s l e mark x hits takes based
    have takes_iff (r : RuleId) :
        (canTake s (s.rule r) = true ∧ watchHits l (s.lane l).prev e mark (s.rule r) = true) ↔ takes (s.rule r) := by
      rw [canTake_iff, watchHits_iff, and_assoc]
    have based_eq : markBase s l = based s := mapRules_congr fun r => by simp
    refine ⟨⟨offered s l e mark, rfl, (lane_offered s l e mark l).trans (if_pos rfl),
      fun k other => (lane_offered s l e mark k).trans (if_neg other), fun r => ?_, offered_eq_with s l e mark⟩,
      fun rules => ?_, rfl⟩
    · have rule := rule_offered s l e mark r
      exact ⟨fun taken => rule.trans (if_pos ((takes_iff r).2 taken)),
        fun passed => rule.trans (if_neg fun h => passed ((takes_iff r).1 h))⟩
    · rw [step2, based_eq]
  case order =>
    exact ⟨nodup_attemptsDue s l, fun r => mem_attemptsDue.trans attemptFalls_iff, (attemptsDue_spec s l).1⟩
  case run =>
    intro s l r fuel todo done due
    have due_iff (u : State) (j : RuleId) : attemptFalls u l j = true ↔ due u j := attemptFalls_iff
    refine ⟨rfl, fun fails => ?_, fun pass room => ?_,
      fun pass noRoom => runAttempts_misses fuel todo done pass noRoom⟩
    · obtain ⟨self, others, lane, frame⟩ := vacated_vacate s r
      exact ⟨_, runAttempts_fails fuel todo done fails, self, others, lane, frame⟩
    · intro t
      refine ⟨dueOnTheWay s l r todo done, rising_dueOnTheWay todo done, fun j => ?_,
        runAttempts_succeeds fuel todo done pass room⟩
      rw [mem_dueOnTheWay, due_iff, due_iff]
  case attempt =>
    intro s l r x chain room takes triggered ticks offered
    have takes_iff (y : Rule) : canTake s y = true ↔ takes y := canTake_iff
    refine ⟨attemptSucceeds_iff, ?succeeds, ?misses⟩
    case succeeds =>
      have others (j : RuleId) := rule_activate_other s l r (j := j)
      simp only [takes_iff] at others
      refine ⟨rule_activate_self s l r,
        fun j other => ⟨fun taken => (others j other).trans (if_pos taken),
          fun passed => (others j other).trans (if_neg passed)⟩,
        fun before after split low high => ?_,
        fun k other => (lane_activate s l r k).trans (if_neg other), activate_eq_with s l r⟩
      have place := chainInsert_between (fun j => (s.rule j).fields.priority) low high
      rw [← split] at place
      rw [lane_activate, if_pos rfl, place]
    case misses =>
      intro t missed
      have self : t.rule r = _ := rule_missAttempt_self s r
      simp only [takes_iff] at self
      exact ⟨fun again => self.trans (if_pos again), fun once => self.trans (if_neg once),
        fun j other => rule_missAttempt_other s r other, missAttempt_eq_with s r⟩

end Sys2Proof.FaultRules
end

section
/-! PROOFS. The words of a rule record: actions and triggers from their kind codes and parameters, and back (R86,
R89, R116, R188, R190; log 19). -/

namespace Sys2Proof.FaultRules

open Sys2Proof.Machine

/-! ## Readings that fail exactly on bad words -/

section Readings

variable {α : Type} {bad : Prop} {reading : Option α} {value : α}

theorem reading_eq_none_iff (fails : bad → reading = none) (reads : ¬bad → reading = some value) :
    reading = none ↔ bad := by
  refine ⟨fun none => ?_, fails⟩
  by_contra good
  exact Option.some_ne_none _ ((reads good).symm.trans none)

theorem reading_eq_some_iff (fails : bad → reading = none) (reads : ¬bad → reading = some value) {a : α} :
    reading = some a ↔ ¬bad ∧ a = value := by
  refine ⟨fun read => ?_, fun ⟨good, same⟩ => same ▸ reads good⟩
  have good : ¬bad := fun isBad => Option.some_ne_none _ (read.symm.trans (fails isBad))
  exact ⟨good, Option.some.inj (read.symm.trans (reads good))⟩

end Readings

/-! ## The fields of a word (R190)

These are equations that are not closed by unfolding: the kernel would count through the powers of 2. -/

/-- The number that a word's fields make. -/
def fieldSum (fields : List (Nat × Nat)) : Nat := fields.foldr (fun p sum => p.1 * 2 ^ p.2 + sum) 0

theorem fieldSum_nil : fieldSum [] = 0 := by rw [fieldSum, List.foldr_nil]

theorem fieldSum_cons (value low : Nat) (rest : List (Nat × Nat)) :
    fieldSum ((value, low) :: rest) = value * 2 ^ low + fieldSum rest := by
  rw [fieldSum, List.foldr_cons, ← fieldSum]

theorem toNat_packWord (fields : List (Nat × Nat)) : (packWord fields).toNat = fieldSum fields % 2 ^ 32 := by
  rw [packWord, BitVec.toNat_ofNat, fieldSum]

/-! ## Parameters (R190) -/

theorem signedField_eq (w : Word) : signedField w = (w.setWidth 24).toInt := rfl

theorem signedField_codes (w : Word) : codeMin ≤ signedField w ∧ signedField w ≤ codeMax :=
  Conversion.signedField_inRange w

theorem setWidth_signedWord (e : Int) : (signedWord e).setWidth 24 = BitVec.ofInt 24 e := by
  refine BitVec.eq_of_getLsbD_eq fun i low => ?_
  have wide : i < 32 := Nat.lt_trans low (by decide)
  rw [signedWord, BitVec.getLsbD_setWidth, BitVec.getLsbD_signExtend]
  simp only [low, wide, decide_true, Bool.true_and, if_true]

/-- An engineering code is read back from its word. -/
theorem signedField_signedWord {e : Int} (low : codeMin ≤ e) (high : e ≤ codeMax) :
    signedField (signedWord e) = e := by
  unfold codeMin at low
  unfold codeMax at high
  rw [signedField_eq, setWidth_signedWord, BitVec.toInt_ofInt_eq_self (by decide) (by omega) (by omega)]

theorem toNat_numberWord {n : Nat} (h : n < 2 ^ 32) : (numberWord n).toNat = n := Nat.mod_eq_of_lt h

theorem upTo_numberWord {top n : Nat} (h : n ≤ top) (bound : top < 2 ^ 32) : upTo top (numberWord n) = some n := by
  rw [upTo, toNat_numberWord (Nat.lt_of_le_of_lt h bound), if_pos h]

theorem maskParam_numberWord (m : OutCode) : maskParam (numberWord m.toNat) = some m := by
  have bound := m.isLt
  rw [maskParam, toNat_numberWord (by omega), if_pos (by omega), BitVec.ofNat_toNat, BitVec.setWidth_eq]

theorem toInt_numberWord_ofInt {g : Int} (low : -32768 ≤ g) (high : g ≤ 32767) :
    (BitVec.ofNat 16 (numberWord (BitVec.ofInt 16 g).toNat).toNat).toInt = g := by
  have bound := (BitVec.ofInt 16 g).isLt
  rw [toNat_numberWord (by omega), BitVec.ofNat_toNat, BitVec.setWidth_eq,
    BitVec.toInt_ofInt_eq_self (by decide) (by omega) (by omega)]

theorem lineParam_lineCode {state : LineState} (h : state ≠ .normal) : lineParam (lineCode state) = some state := by
  cases state <;> simp_all [lineParam, lineCode]

theorem lineCode_lt (state : LineState) : lineCode state < 4 := by cases state <;> decide

/-! ## Actions (R116) -/

/-- An action in range is read back from its kind code and parameters. -/
theorem decodeAction_encodeAction {a : Action} (valid : a.valid) :
    decodeAction (encodeAction a).1 (encodeAction a).2.1 (encodeAction a).2.2.1 (encodeAction a).2.2.2 = some a := by
  cases a with
  | stuck v | offset v =>
    obtain ⟨low, high⟩ := valid
    simp [encodeAction, decodeAction, signedField_signedWord low high]
  | gain g d =>
    obtain ⟨lowG, highG, low, high⟩ := valid
    simp only [encodeAction, decodeAction, signedField_signedWord low high, toInt_numberWord_ofInt lowG highG]
  | noise a seed =>
    obtain ⟨amplitude, seeded⟩ := valid
    simp [encodeAction, decodeAction, upTo_numberWord amplitude, upTo_numberWord seeded]
  | ramp step limit =>
    obtain ⟨low, high, limited⟩ := valid
    simp [encodeAction, decodeAction, signedField_signedWord low high, upTo_numberWord limited]
  | clamp lo hi =>
    obtain ⟨low, ordered, high⟩ := valid
    simp [encodeAction, decodeAction, signedField_signedWord low (ordered.trans high),
      signedField_signedWord (low.trans ordered) high, ordered]
  | force | flip | codeStuck => simp [encodeAction, decodeAction, maskParam_numberWord]
  | delay n =>
    obtain ⟨low, high⟩ := valid
    simp [encodeAction, decodeAction, toNat_numberWord (n := n) (by omega), low, high]
  | seqJump n =>
    obtain ⟨low, high⟩ := valid
    simp [encodeAction, decodeAction, toNat_numberWord (n := n) (by omega), low, high]
  | line state =>
    have code := toNat_numberWord (n := lineCode state) (Nat.lt_trans (lineCode_lt state) (by decide))
    simp [encodeAction, decodeAction, code, lineParam_lineCode valid]
  | invert | orderSwap | drop | freeze | checkBad | seqHold => rfl

theorem encodeAction_kind_le (a : Action) : (encodeAction a).1 ≤ 17 := by cases a <;> simp [encodeAction]

/-- A kind that R116 does not list, or a parameter that its action uses outside its range. -/
def BadAction (kind : Nat) (p1 p2 : Word) : Prop :=
  17 < kind ∨ (kind = 3 ∧ (8388607 < p1.toNat ∨ 8388607 < p2.toNat)) ∨
    (kind = 4 ∧ 8388607 < p2.toNat) ∨ (kind = 5 ∧ signedField p2 < signedField p1) ∨
    (kind = 7 ∧ (1048575 < p1.toNat ∨ 1048575 < p2.toNat)) ∨
    ((kind = 8 ∨ kind = 9) ∧ 1048575 < p1.toNat) ∨ (kind = 13 ∧ (p1.toNat = 0 ∨ 64 < p1.toNat)) ∨
    (kind = 14 ∧ (p1.toNat = 0 ∨ 3 < p1.toNat)) ∨ (kind = 17 ∧ (p1.toNat = 0 ∨ 14 < p1.toNat))

/-- The line state of a code above 0. -/
def lineNamed (code : Nat) : LineState :=
  if code = 1 then .openLine else if code = 2 then .shortLow else .shortHigh

/-- The action that a kind of R116 and its parameters name. -/
def actionNamed (kind : Nat) (p1 p2 : Word) : Action :=
  match kind with
  | 0 => .stuck (signedField p1)
  | 1 => .offset (signedField p1)
  | 2 => .gain (p1.setWidth 16).toInt (signedField p2)
  | 3 => .noise p1.toNat p2.toNat
  | 4 => .ramp (signedField p1) p2.toNat
  | 5 => .clamp (signedField p1) (signedField p2)
  | 6 => .invert
  | 7 => .force (p1.setWidth 20) (p2.setWidth 20)
  | 8 => .flip (p1.setWidth 20)
  | 9 => .codeStuck (p1.setWidth 20)
  | 10 => .orderSwap
  | 11 => .drop
  | 12 => .freeze
  | 13 => .delay p1.toNat
  | 14 => .line (lineNamed p1.toNat)
  | 15 => .checkBad
  | 16 => .seqHold
  | _ => .seqJump p1.toNat

theorem upTo_none {top : Nat} {w : Word} (h : top < w.toNat) : upTo top w = none := if_neg (Nat.not_le.2 h)

theorem upTo_some {top : Nat} {w : Word} (h : w.toNat ≤ top) : upTo top w = some w.toNat := if_pos h

theorem maskParam_none {w : Word} (h : 1048575 < w.toNat) : maskParam w = none := if_neg (Nat.not_le.2 h)

theorem maskParam_some {w : Word} (h : w.toNat ≤ 1048575) : maskParam w = some (w.setWidth 20) := if_pos h

theorem lineParam_none {n : Nat} (h : n = 0 ∨ 3 < n) : lineParam n = none := by
  rcases h with rfl | high
  · rfl
  · obtain ⟨k, rfl⟩ := Nat.exists_eq_add_of_le' high
    rfl

theorem lineParam_some {n : Nat} (low : n ≠ 0) (high : n ≤ 3) : lineParam n = some (lineNamed n) := by
  interval_cases n <;> simp_all [lineParam, lineNamed]

section Actions

variable {kind : Nat} {p1 p2 p3 : Word}

theorem line_code_ne_zero (good : ¬BadAction 14 p1 p2) : p1.toNat ≠ 0 := by
  unfold BadAction at good
  omega

theorem decodeAction_none (bad : BadAction kind p1 p2) : decodeAction kind p1 p2 p3 = none := by
  rcases bad with high | ⟨rfl, amplitude | seed⟩ | ⟨rfl, limit⟩ | ⟨rfl, order⟩ | ⟨rfl, first | second⟩ |
    ⟨rfl | rfl, mask⟩ | ⟨rfl, n⟩ | ⟨rfl, line⟩ | ⟨rfl, k⟩
  · obtain ⟨k, rfl⟩ := Nat.exists_eq_add_of_le' high
    rfl
  · simp [decodeAction, upTo_none amplitude]
  · simp [decodeAction, upTo_none seed]
  · simp [decodeAction, upTo_none limit]
  · simp [decodeAction, order]
  · simp [decodeAction, maskParam_none first]
  · simp [decodeAction, maskParam_none second]
  · simp [decodeAction, maskParam_none mask]
  · simp [decodeAction, maskParam_none mask]
  · exact if_neg (by omega)
  · simp [decodeAction, lineParam_none line]
  · exact if_neg (by omega)

theorem decodeAction_some (good : ¬BadAction kind p1 p2) :
    decodeAction kind p1 p2 p3 = some (actionNamed kind p1 p2) := by
  simp only [BadAction, not_or, not_and, Nat.not_lt, Int.not_lt] at good
  obtain ⟨listed, noise, ramp, clamp, force, masks, delay, line, jump⟩ := good
  match kind with
  | 0 | 1 | 2 | 6 | 10 | 11 | 12 | 15 | 16 => rfl
  | 3 => simp only [decodeAction, actionNamed, upTo_some (noise rfl).1, upTo_some (noise rfl).2]
  | 4 => simp only [decodeAction, actionNamed, upTo_some (ramp rfl)]
  | 5 => simp only [decodeAction, actionNamed, clamp rfl, if_true]
  | 7 => simp only [decodeAction, actionNamed, maskParam_some (force rfl).1, maskParam_some (force rfl).2]
  | 8 => simp only [decodeAction, actionNamed, maskParam_some (masks (.inl rfl))]
  | 9 => simp only [decodeAction, actionNamed, maskParam_some (masks (.inr rfl))]
  | 13 =>
    obtain ⟨low, high⟩ := delay rfl
    simp [decodeAction, actionNamed, high, low, Nat.one_le_iff_ne_zero]
  | 14 => simp only [decodeAction, actionNamed, lineParam_some (line rfl).1 (line rfl).2]
  | 17 =>
    obtain ⟨low, high⟩ := jump rfl
    simp [decodeAction, actionNamed, high, low, Nat.one_le_iff_ne_zero]
  | n + 18 => omega

theorem decodeAction_eq_some_iff {a : Action} : decodeAction kind p1 p2 p3 = some a ↔
    ¬BadAction kind p1 p2 ∧ a = actionNamed kind p1 p2 :=
  reading_eq_some_iff decodeAction_none decodeAction_some

theorem lineNamed_ne_normal (code : Nat) : lineNamed code ≠ .normal := by
  unfold lineNamed
  split_ifs <;> simp

theorem lineNamed_lineCode {state : LineState} (h : lineCode state ≠ 0) : lineNamed (lineCode state) = state := by
  cases state <;> simp_all [lineNamed, lineCode]

/-- An action that is read is in range. -/
theorem valid_actionNamed (good : ¬BadAction kind p1 p2) : (actionNamed kind p1 p2).valid := by
  have code1 := signedField_codes p1
  have code2 := signedField_codes p2
  simp only [BadAction, not_or, not_and, Nat.not_lt, Int.not_lt] at good
  obtain ⟨listed, noise, ramp, clamp, force, masks, delay, line, jump⟩ := good
  match kind with
  | 0 | 1 => exact code1
  | 2 =>
    have low := BitVec.le_toInt (p1.setWidth 16)
    have high := BitVec.toInt_lt (x := p1.setWidth 16)
    exact ⟨by omega, by omega, code2⟩
  | 3 => exact noise rfl
  | 4 => exact ⟨code1.1, code1.2, ramp rfl⟩
  | 5 => exact ⟨code1.1, clamp rfl, code2.2⟩
  | 6 | 7 | 8 | 9 | 10 | 11 | 12 | 15 | 16 => exact trivial
  | 13 => exact ⟨Nat.pos_of_ne_zero (delay rfl).1, (delay rfl).2⟩
  | 14 => exact lineNamed_ne_normal _
  | 17 => exact ⟨Nat.pos_of_ne_zero (jump rfl).1, (jump rfl).2⟩
  | n + 18 => omega

/-- FREEZE is kind 12 alone. -/
theorem actionNamed_eq_freeze_iff (good : ¬BadAction kind p1 p2) : actionNamed kind p1 p2 = .freeze ↔ kind = 12 := by
  have listed : kind ≤ 17 := Nat.not_lt.1 fun high => good (.inl high)
  interval_cases kind <;> simp [actionNamed]

end Actions

theorem codeFits_iff {v : Int} : codeFits v = true ↔ codeMin ≤ v ∧ v ≤ codeMax := by
  simp [codeFits, codeMin, codeMax]

/-- An action in range fits its places. -/
theorem fits_of_valid {a : Action} (valid : a.valid) : a.fits = true := by
  cases a with
  | stuck v | offset v => exact codeFits_iff.2 valid
  | gain g d =>
    obtain ⟨lowG, highG, code⟩ := valid
    simp [Action.fits, lowG, highG, codeFits_iff.2 code]
  | noise a seed =>
    obtain ⟨amplitude, seeded⟩ := valid
    simp [Action.fits, amplitude, seeded]
  | ramp step limit =>
    obtain ⟨low, high, limited⟩ := valid
    simp [Action.fits, codeFits_iff.2 ⟨low, high⟩, limited]
  | clamp lo hi =>
    obtain ⟨low, ordered, high⟩ := valid
    simp [Action.fits, codeFits_iff.2 ⟨low, ordered.trans high⟩, codeFits_iff.2 ⟨low.trans ordered, high⟩]
  | delay n =>
    obtain ⟨-, high⟩ := valid
    exact decide_eq_true (Nat.lt_of_le_of_lt high (by decide))
  | seqJump k =>
    obtain ⟨-, high⟩ := valid
    exact decide_eq_true (Nat.lt_of_le_of_lt high (by decide))
  | invert | force | flip | codeStuck | orderSwap | drop | freeze | line | checkBad | seqHold => rfl

/-! ## Triggers (R86, R89) -/

/-- A kind, a qualifier or a value that R86 does not give to a trigger of the rule `own`. -/
def BadTrigger (own kind qualifier : Nat) (value : Word) : Prop :=
  5 < kind ∨ (kind = 2 ∧ 16 < qualifier) ∨ (kind = 3 ∧ 2 < qualifier) ∨
    (kind = 4 ∧ (value.toNat = own ∨ 255 < value.toNat ∨ 1 < qualifier)) ∨ (kind = 5 ∧ 7 < value.toNat)

/-- The trigger that a kind of R86 names with its qualifier and value. -/
def triggerNamed (kind qualifier : Nat) (value : Word) : Trigger :=
  match kind with
  | 0 => .immediate
  | 1 => .atCycle value
  | 2 => .onMark (if qualifier = 16 then none else some qualifier)
  | 3 => .onLevel (signedField value)
    (if qualifier = 0 then .rising else if qualifier = 1 then .falling else .either)
  | 4 => .onRule (Fin.ofNat 256 value.toNat) (if qualifier = 0 then .active else .ended)
  | _ => .onCommand value.toNat

section Triggers

variable {own kind qualifier : Nat} {value : Word}

theorem rule_index_lt (good : ¬BadTrigger own 4 qualifier value) : value.toNat < 256 := by
  unfold BadTrigger at good
  omega

theorem decodeTrigger_none (bad : BadTrigger own kind qualifier value) :
    decodeTrigger own kind qualifier value = none := by
  rcases bad with high | ⟨rfl, tag⟩ | ⟨rfl, edge⟩ | ⟨rfl, self | high | signal⟩ | ⟨rfl, channel⟩
  · obtain ⟨k, rfl⟩ := Nat.exists_eq_add_of_le' high
    rfl
  · exact (if_neg (by omega)).trans (if_neg (by omega))
  · obtain ⟨k, rfl⟩ := Nat.exists_eq_add_of_le' edge
    rfl
  · simp [decodeTrigger, self]
  · simp [decodeTrigger, toFin?_none high]
  · obtain ⟨k, rfl⟩ := Nat.exists_eq_add_of_le' signal
    cases toFin? value.toNat 256 <;> simp [decodeTrigger]
  · exact if_neg (by omega)

theorem decodeTrigger_some (good : ¬BadTrigger own kind qualifier value) :
    decodeTrigger own kind qualifier value = some (triggerNamed kind qualifier value) := by
  simp only [BadTrigger, not_or, not_and, Nat.not_lt] at good
  obtain ⟨listed, tag, edge, rule, channel⟩ := good
  match kind with
  | 0 | 1 => rfl
  | 2 =>
    have tag := tag rfl
    by_cases any : qualifier = 16
    · subst any
      rfl
    · simp [decodeTrigger, triggerNamed, any]
      omega
  | 3 =>
    have edge := edge rfl
    interval_cases qualifier <;> rfl
  | 4 =>
    obtain ⟨other, bound, signal⟩ := rule rfl
    have isRule : toFin? value.toNat 256 = some (Fin.ofNat 256 value.toNat) :=
      toFin?_val _ (Nat.mod_eq_of_lt (by omega)).symm
    interval_cases qualifier <;> simp [decodeTrigger, triggerNamed, other, isRule]
  | 5 => exact if_pos (by have := channel rfl; omega)
  | n + 6 => omega

theorem decodeTrigger_eq_some_iff {t : Trigger} : decodeTrigger own kind qualifier value = some t ↔
    ¬BadTrigger own kind qualifier value ∧ t = triggerNamed kind qualifier value :=
  reading_eq_some_iff decodeTrigger_none decodeTrigger_some

/-- A trigger that is read is in range. -/
theorem valid_triggerNamed (good : ¬BadTrigger own kind qualifier value) :
    (triggerNamed kind qualifier value).valid own := by
  simp only [BadTrigger, not_or, not_and, Nat.not_lt] at good
  obtain ⟨listed, tag, edge, rule, channel⟩ := good
  match kind with
  | 0 | 1 => exact trivial
  | 2 =>
    have tag := tag rfl
    by_cases any : qualifier = 16
    · simp [triggerNamed, any, Trigger.valid]
    · simp [triggerNamed, any, Trigger.valid]
      omega
  | 3 => exact signedField_codes value
  | 4 =>
    obtain ⟨other, bound, -⟩ := rule rfl
    have index : (Fin.ofNat 256 value.toNat).val = value.toNat := Nat.mod_eq_of_lt (by omega)
    intro self
    exact other (index.symm.trans self)
  | 5 => exact Nat.lt_succ_of_le (channel rfl)
  | n + 6 => omega

end Triggers

theorem encodeTrigger_kind_le (t : Trigger) : (encodeTrigger t).1 ≤ 5 := by
  cases t with
  | onMark tag => cases tag <;> simp [encodeTrigger]
  | onLevel level edge => cases edge <;> simp [encodeTrigger]
  | onRule r signal => cases signal <;> simp [encodeTrigger]
  | _ => simp [encodeTrigger]

theorem encodeTrigger_qualifier_le {own : Nat} {t : Trigger} (valid : t.valid own) : (encodeTrigger t).2.1 ≤ 16 := by
  cases t with
  | onMark tag =>
    cases tag with
    | none => exact Nat.le_refl 16
    | some tag => exact Nat.le_of_lt valid
  | onLevel level edge => cases edge <;> simp [encodeTrigger]
  | onRule r signal => cases signal <;> simp [encodeTrigger]
  | _ => simp [encodeTrigger]

/-- A trigger in range is read back from its kind code, qualifier and value. -/
theorem decodeTrigger_encodeTrigger {own : Nat} {t : Trigger} (valid : t.valid own) :
    decodeTrigger own (encodeTrigger t).1 (encodeTrigger t).2.1 (encodeTrigger t).2.2 = some t := by
  cases t with
  | immediate | atCycle => rfl
  | onMark tag =>
    cases tag with
    | none => rfl
    | some tag => exact if_pos valid
  | onLevel level edge =>
    obtain ⟨low, high⟩ := valid
    cases edge <;> simp [encodeTrigger, decodeTrigger, signedField_signedWord low high]
  | onRule r signal =>
    have code := toNat_numberWord (Nat.lt_trans r.isLt (by decide))
    have other : r.val ≠ own := valid
    cases signal <;> simp [encodeTrigger, decodeTrigger, code, other, toFin?_val r rfl]
  | onCommand channel =>
    have bound : channel < 8 := valid
    have code := toNat_numberWord (n := channel) (by omega)
    simp [encodeTrigger, decodeTrigger, code, bound]

end Sys2Proof.FaultRules
end

section
/-! PROOFS. Rule records in the LOAD_RULE layout, and LOAD_RULE and CLEAR_RULE (R86, R89, R90, R116, R190; log 15,
log 17, log 19). -/

namespace Sys2Proof.FaultRules

open Sys2Proof.Machine

/-! ## The record that a payload holds (R89) -/

section Payload

variable (own : Nat) (p : List Word)

/-- The kind code of the action. -/
def actionKind : Nat := field (param p 1) 27 5

/-- The kind code of the trigger. -/
def triggerKind : Nat := field (param p 1) 24 3

/-- The trigger's qualifier. -/
def triggerQualifier : Nat := field (param p 2) 24 8

/-- A payload that LOAD_RULE refuses for the rule `own`. -/
def BadRule : Prop :=
  23 < field (param p 0) 0 5 ∨ 23 < field (param p 0) 5 5 ∨
    BadTrigger own (triggerKind p) (triggerQualifier p) (param p 3) ∨
    BadAction (actionKind p) (param p 4) (param p 5)

/-- The record as LOAD_RULE stores it: a FREEZE rule has INTERMITTENCY 0. -/
def takenRecord : RuleFields where
  lane := field (param p 0) 0 5
  watch := field (param p 0) 5 5
  group := field (param p 0) 10 4
  priority := field (param p 0) 14 4
  action := actionNamed (actionKind p) (param p 4) (param p 5)
  trigger := triggerNamed (triggerKind p) (triggerQualifier p) (param p 3)
  unit := if field (param p 0) 18 1 = 0 then .ticks else .cycles
  delay := field (param p 1) 0 16
  duration := field (param p 2) 0 24
  repeats := field (param p 1) 16 8
  intermittency := if actionKind p = 12 then 0 else field (param p 0) 20 8
  notify := field (param p 0) 19 1 = 0

/-- Whether the record is stored otherwise than it was sent. -/
def isAdjusted : Bool := decide (actionKind p = 12 ∧ field (param p 0) 20 8 ≠ 0)

variable {own} {p}

theorem decodeRule_none (bad : BadRule own p) : decodeRule own p = none := by
  rcases bad with lane | watch | trigger | action
  · have out : ¬(field (param p 0) 0 5 < 24 ∧ field (param p 0) 5 5 < 24) := by omega
    simp only [decodeRule, out, if_false]
    split <;> rfl
  · have out : ¬(field (param p 0) 0 5 < 24 ∧ field (param p 0) 5 5 < 24) := by omega
    simp only [decodeRule, out, if_false]
    split <;> rfl
  · have none := decodeTrigger_none trigger
    simp only [triggerKind, triggerQualifier] at none
    simp only [decodeRule, none]
    cases decodeAction (field (param p 1) 27 5) (param p 4) (param p 5) (param p 6) <;> rfl
  · have none (third : Word) := decodeAction_none (p3 := third) action
    simp only [actionKind] at none
    simp only [decodeRule, none]

theorem decodeRule_some (good : ¬BadRule own p) : decodeRule own p = some (takenRecord p, isAdjusted p) := by
  simp only [BadRule, not_or, Nat.not_lt] at good
  obtain ⟨lane, watch, trigger, action⟩ := good
  have lanes : field (param p 0) 0 5 < 24 ∧ field (param p 0) 5 5 < 24 := by omega
  have readAction (third : Word) := decodeAction_some (p3 := third) action
  have readTrigger := decodeTrigger_some trigger
  have freeze := actionNamed_eq_freeze_iff action
  simp only [actionKind] at readAction freeze
  simp only [triggerKind, triggerQualifier] at readTrigger
  simp only [decodeRule, readAction, readTrigger, lanes, and_self, if_true, freeze]
  have adjusts : (field (param p 0) 20 8 != if actionKind p = 12 then 0 else field (param p 0) 20 8) =
      isAdjusted p := by
    rw [Bool.eq_iff_iff, isAdjusted, decide_eq_true_iff, bne_iff_ne]
    split
    · next isFreeze => simp [isFreeze]
    · next other => simp [other]
  exact congrArg some (Prod.ext rfl adjusts)

theorem decodeRule_eq_none_iff : decodeRule own p = none ↔ BadRule own p :=
  reading_eq_none_iff decodeRule_none decodeRule_some

theorem decodeRule_eq_some_iff {f : RuleFields} {adjusted : Bool} : decodeRule own p = some (f, adjusted) ↔
    ¬BadRule own p ∧ f = takenRecord p ∧ adjusted = isAdjusted p := by
  rw [reading_eq_some_iff decodeRule_none decodeRule_some, Prod.mk.injEq]

/-- A record that is taken is in range. -/
theorem valid_takenRecord (good : ¬BadRule own p) : (takenRecord p).valid own := by
  simp only [BadRule, not_or, Nat.not_lt] at good
  obtain ⟨lane, watch, trigger, action⟩ := good
  have valid := valid_actionNamed action
  refine ⟨?fits, Nat.lt_succ_of_le lane, Nat.lt_succ_of_le watch, valid, valid_triggerNamed trigger,
    fun freeze => if_pos ((actionNamed_eq_freeze_iff action).1 freeze)⟩
  have fits := fits_of_valid valid
  have group := Playlist.field_lt (param p 0) 10 4
  have priority := Playlist.field_lt (param p 0) 14 4
  have level : field (param p 0) 20 8 < 256 := Playlist.field_lt (param p 0) 20 8
  have delay := Playlist.field_lt (param p 1) 0 16
  have repeats := Playlist.field_lt (param p 1) 16 8
  have duration := Playlist.field_lt (param p 2) 0 24
  have gate : (takenRecord p).intermittency < 256 := by
    simp only [takenRecord]
    split <;> omega
  have lane : (takenRecord p).lane < 32 := Nat.lt_of_le_of_lt lane (by decide)
  have watch : (takenRecord p).watch < 32 := Nat.lt_of_le_of_lt watch (by decide)
  simp only [RuleFields.fits, Bool.and_eq_true, decide_eq_true_eq]
  exact ⟨⟨⟨⟨⟨⟨⟨⟨lane, watch⟩, group⟩, priority⟩, delay⟩, duration⟩, repeats⟩, gate⟩, fits⟩

end Payload

/-! ## The layout (R190) -/

/-- The code of UNIT. -/
def unitCode : RuleUnit → Nat
  | .ticks => 0
  | .cycles => 1

section Layout

variable {f : RuleFields}

/-- The first word of a record in the LOAD_RULE layout. -/
theorem fields_firstWord (lane : f.lane < 24) (watch : f.watch < 24) (group : f.group < 16)
    (priority : f.priority < 16) (level : f.intermittency < 256) :
    let w := param (encodeRule f) 0
    field w 0 5 = f.lane ∧ field w 5 5 = f.watch ∧ field w 10 4 = f.group ∧ field w 14 4 = f.priority ∧
      field w 18 1 = unitCode f.unit ∧ field w 19 1 = flagBit (!f.notify) ∧ field w 20 8 = f.intermittency := by
  have unit : unitCode f.unit < 2 := by cases f.unit <;> decide
  have notify : flagBit (!f.notify) < 2 := by cases f.notify <;> decide
  intro w
  have word : w = packWord [(f.lane, 0), (f.watch, 5), (f.group, 10), (f.priority, 14), (unitCode f.unit, 18),
      (flagBit (!f.notify), 19), (f.intermittency, 20)] := rfl
  simp only [word, field, bitsAt, toNat_packWord, fieldSum_cons, fieldSum_nil]
  omega

/-- The second word. -/
theorem fields_secondWord (delay : f.delay < 65536) (repeats : f.repeats < 256) :
    let w := param (encodeRule f) 1
    field w 0 16 = f.delay ∧ field w 16 8 = f.repeats ∧ field w 24 3 = (encodeTrigger f.trigger).1 ∧
      field w 27 5 = (encodeAction f.action).1 := by
  have trigger := encodeTrigger_kind_le f.trigger
  have action := encodeAction_kind_le f.action
  intro w
  have word : w = packWord [(f.delay, 0), (f.repeats, 16), ((encodeTrigger f.trigger).1, 24),
      ((encodeAction f.action).1, 27)] := rfl
  simp only [word, field, bitsAt, toNat_packWord, fieldSum_cons, fieldSum_nil]
  omega

/-- The third word. -/
theorem fields_thirdWord (duration : f.duration < 16777216) (qualifier : (encodeTrigger f.trigger).2.1 ≤ 16) :
    let w := param (encodeRule f) 2
    field w 0 24 = f.duration ∧ field w 24 8 = (encodeTrigger f.trigger).2.1 := by
  intro w
  have word : w = packWord [(f.duration, 0), ((encodeTrigger f.trigger).2.1, 24)] := rfl
  simp only [word, field, bitsAt, toNat_packWord, fieldSum_cons, fieldSum_nil]
  omega

theorem unit_of_code (unit : RuleUnit) : (if unitCode unit = 0 then RuleUnit.ticks else .cycles) = unit := by
  cases unit <;> rfl

theorem notify_of_flag (notify : Bool) : decide (flagBit (!notify) = 0) = notify := by cases notify <;> rfl

end Layout

/-- Settles O8. Each word's fields, the action and the trigger are read back from their codes. -/
theorem ruleLayoutRoundTrip : Obligations.RuleLayoutRoundTrip := by
  intro own f valid
  obtain ⟨fits, laneLt, watchLt, actionValid, triggerValid, freeze⟩ := valid
  simp only [RuleFields.fits, Bool.and_eq_true, decide_eq_true_eq] at fits
  obtain ⟨⟨⟨⟨⟨⟨⟨⟨-, -⟩, groupLt⟩, priorityLt⟩, delayLt⟩, durationLt⟩, repeatsLt⟩, levelLt⟩, -⟩ := fits
  obtain ⟨lane, watch, group, priority, unit, notify, level⟩ :=
    fields_firstWord laneLt watchLt groupLt priorityLt levelLt
  obtain ⟨delay, repeats, triggerCode, actionCode⟩ := fields_secondWord delayLt repeatsLt
  obtain ⟨duration, qualifier⟩ := fields_thirdWord durationLt (encodeTrigger_qualifier_le triggerValid)
  obtain ⟨goodAction, action⟩ := decodeAction_eq_some_iff.1 (decodeAction_encodeAction actionValid)
  obtain ⟨goodTrigger, trigger⟩ := decodeTrigger_eq_some_iff.1 (decodeTrigger_encodeTrigger triggerValid)
  rw [← actionCode] at goodAction action
  rw [← triggerCode, ← qualifier] at goodTrigger trigger
  have isFreezeIff : f.action = .freeze ↔ actionKind (encodeRule f) = 12 := by
    rw [action]
    exact actionNamed_eq_freeze_iff goodAction
  refine decodeRule_eq_some_iff.2 ⟨?good, ?same, ?unadjusted⟩
  case good =>
    rintro (high | high | bad | bad)
    · omega
    · omega
    · exact goodTrigger bad
    · exact goodAction bad
  case same =>
    have gate : (if actionKind (encodeRule f) = 12 then 0 else field (param (encodeRule f) 0) 20 8) =
        f.intermittency := by
      split
      · next isFreeze => exact (freeze (isFreezeIff.2 isFreeze)).symm
      · exact level
    exact ((RuleFields.mk.injEq ..).mpr ⟨lane, watch, group, priority, action.symm, trigger.symm,
      (unit ▸ unit_of_code f.unit), delay, duration, repeats, gate, (notify ▸ notify_of_flag f.notify)⟩).symm
  case unadjusted =>
    refine (decide_eq_false ?_).symm
    rintro ⟨isFreeze, raised⟩
    exact raised (level.trans (freeze (isFreezeIff.2 isFreeze)))

/-! ## LOAD_RULE, CLEAR_RULE (R89, R90) -/

section Commands

variable {p : Place} {u : State}

theorem runLoadRule_idle {r : RuleId} (index : p.index = r.val) (idle : ¬(u.rule r).state.busy = true)
    {f : RuleFields} {adjusted : Bool} (read : decodeRule r.val p.payload = some (f, adjusted)) :
    runLoadRule p u = (u.setRule r (Rule.loadedWith f),
      .reply (if adjusted then .adjusted else .done) (if adjusted then encodeRule f else [])) := by
  simp only [runLoadRule, toFin?_val r index, idle, read]
  cases adjusted <;> rfl

end Commands

/-- Settles O53: what LOAD_RULE reads, and what it and CLEAR_RULE store. -/
theorem rulesAreLoadedAndCleared : Obligations.RulesAreLoadedAndCleared := by
  refine ⟨?payload, ?commands⟩
  case payload =>
    intro own payload word bits code action trigger qualifier badTrigger badAction
    refine ⟨decodeRule_eq_none_iff, fun f adjusted read => ?_⟩
    obtain ⟨good, rfl, rfl⟩ := decodeRule_eq_some_iff.1 read
    simp only [BadRule, not_or, Nat.not_lt] at good
    obtain ⟨-, -, goodTrigger, goodAction⟩ := good
    have actionIs (k : Nat) (is : action = k) :
        (takenRecord payload).action = actionNamed k (param payload 4) (param payload 5) := is ▸ rfl
    have triggerIs (k : Nat) (is : trigger = k) :
        (takenRecord payload).trigger = triggerNamed k qualifier (param payload 3) := is ▸ rfl
    refine ⟨rfl, rfl, rfl, rfl, rfl, rfl, rfl, rfl, rfl, rfl, decide_eq_true_iff, triggerIs 0, triggerIs 1,
      triggerIs 2, triggerIs 3, fun is => ⟨Fin.ofNat 256 (word 3), ?index, triggerIs 4 is⟩, triggerIs 5, actionIs 0,
      actionIs 1, actionIs 2, actionIs 3, actionIs 4, actionIs 5, actionIs 6, actionIs 7, actionIs 8, actionIs 9,
      actionIs 10, actionIs 11, actionIs 12, actionIs 13, fun state is code => ?line, actionIs 15, actionIs 16,
      actionIs 17⟩
    case index =>
      have good : ¬BadTrigger own.val 4 (triggerQualifier payload) (param payload 3) := by
        rw [← is]
        exact goodTrigger
      exact Nat.mod_eq_of_lt (rule_index_lt good)
    case line =>
      have good : ¬BadAction 14 (param payload 4) (param payload 5) := by
        rw [← is]
        exact goodAction
      have faulty : lineCode state ≠ 0 := fun zero => line_code_ne_zero good (code.trans zero)
      rw [actionIs 14 is, actionNamed]
      exact congrArg Action.line ((congrArg lineNamed code).trans (lineNamed_lineCode faulty))
  case commands =>
    intro s p rest headed u answer busy cleared
    have busyIff (r : RuleId) : (u.rule r).state.busy = true ↔ busy r := busy_iff _
    refine ⟨fun carried => ?load, fun carried => ?clear⟩
    case load =>
      have answers {v : State} {status : Status} {words : List Word}
          (run : runLoadRule p u = (v, .reply status words)) (cmd : v.cmd = u.cmd) :
          exec .loadRule s = answer v status words :=
        takeRecord_reply headed carried (isCommand_carriedOut carried) run (congrArg _ cmd)
      refine ⟨fun high => answers (by rw [runLoadRule, toFin?_none high]; rfl) rfl,
        fun r index => ⟨fun isBusy => ?_, fun idle unread => ?_, fun f adjusted idle read => ⟨?_, ?_⟩⟩⟩
      · exact answers (by rw [runLoadRule, toFin?_val r index]; exact if_pos ((busyIff r).2 isBusy)) rfl
      · have idle : ¬(u.rule r).state.busy = true := fun isBusy => idle ((busyIff r).1 isBusy)
        exact answers (by simp only [runLoadRule, toFin?_val r index, idle, unread]; rfl) rfl
      · obtain ⟨good, rfl, -⟩ := decodeRule_eq_some_iff.1 read
        exact valid_takenRecord good
      · exact answers (runLoadRule_idle index (fun isBusy => idle ((busyIff r).1 isBusy)) read) rfl
    case clear =>
      have answers {v : State} {status : Status} {words : List Word}
          (run : runClearRule p u = (v, .reply status words)) (cmd : v.cmd = u.cmd) :
          exec .clearRule s = answer v status words :=
        takeRecord_reply headed carried (isCommand_carriedOut carried) run (congrArg _ cmd)
      refine ⟨fun high => answers (by rw [runClearRule, toFin?_none high]; rfl) rfl,
        fun r index => ⟨fun isBusy => ?_, fun idle => ?_⟩⟩
      · exact answers (by rw [runClearRule, toFin?_val r index]; exact if_pos ((busyIff r).2 isBusy)) rfl
      · have idle : ¬(u.rule r).state.busy = true := fun isBusy => idle ((busyIff r).1 isBusy)
        exact answers (by rw [runClearRule, toFin?_val r index]; exact if_neg idle) rfl

end Sys2Proof.FaultRules
end

section
/-! PROOFS. The lane port: the bit strings of words and frames, the check byte of a frame, and the strobe that moves
a pending word into transfer (R132, R133, R184 to R188). -/

namespace Sys2Proof.LanePort

open Sys2Proof.Machine

/-! ## Bit strings and their values -/

@[simp] theorem length_bitsMsbFirst (n v : Nat) : (bitsMsbFirst n v).length = n := by
  simp [bitsMsbFirst]

theorem bitsMsbFirst_reverse (n v : Nat) :
    (bitsMsbFirst n v).reverse = (List.range n).map fun i => v.testBit i := by
  refine List.ext_getElem (by simp) fun i inReverse _ => ?_
  have bound : i < n := by simpa using inReverse
  have mirrored : n - 1 - (n - 1 - i) = i := by omega
  simp [bitsMsbFirst, mirrored]

/-- The last bit is the number's parity; the bits before it are those of its half. -/
theorem bitsMsbFirst_succ (n v : Nat) : bitsMsbFirst (n + 1) v = bitsMsbFirst n (v / 2) ++ [v.testBit 0] := by
  have upper : ∀ i ∈ List.range n, v.testBit (n - i) = (v / 2).testBit (n - 1 - i) := fun i mem => by
    have bound : i < n := List.mem_range.1 mem
    rw [← Nat.testBit_add_one]
    congr 1
    omega
  simpa [bitsMsbFirst, List.range_succ] using upper

theorem bitsValue_concat (bits : List Bool) (b : Bool) :
    bitsValue (bits ++ [b]) = 2 * bitsValue bits + flagBit b := by
  simp [bitsValue]

theorem flagBit_testBit_zero (v : Nat) : flagBit (v.testBit 0) = v % 2 := by
  rcases Nat.mod_two_eq_zero_or_one v with even | odd
  · simp [flagBit, even]
  · simp [flagBit, odd]

theorem bitsValue_bitsMsbFirst (n v : Nat) : bitsValue (bitsMsbFirst n v) = v % 2 ^ n := by
  induction n generalizing v with
  | zero => exact (Nat.mod_one v).symm
  | succ n ih =>
    calc bitsValue (bitsMsbFirst (n + 1) v)
      _ = 2 * (v / 2 % 2 ^ n) + v % 2 := by
        rw [bitsMsbFirst_succ, bitsValue_concat, ih, flagBit_testBit_zero]
      _ = v % 2 ^ (n + 1) := by
        rw [Nat.pow_succ', Nat.mod_mul]
        omega

/-- The complement of an n-bit number inverts each of its n bits. -/
theorem bitsMsbFirst_complement {n v : Nat} (fits : v < 2 ^ n) :
    bitsMsbFirst n (2 ^ n - (v + 1)) = (bitsMsbFirst n v).map fun b => !b := by
  have inverted : ∀ i < n, (2 ^ n - (v + 1)).testBit (n - 1 - i) = !v.testBit (n - 1 - i) := fun i bound => by
    have low : n - 1 - i < n := by omega
    simp [Nat.testBit_two_pow_sub_succ fits, low]
  simpa [bitsMsbFirst] using inverted

/-! ## Bytes and the check byte (R186) -/

/-- The bytes of whole bytes followed by one more. -/
theorem bytesOf_append_byte (n : Nat) {bits last : List Bool} (whole : bits.length = 8 * n)
    (byte : last.length = 8) : bytesOf (n + 1) (bits ++ last) = bytesOf n bits ++ [bitsValue last] := by
  induction n generalizing bits with
  | zero =>
    obtain rfl : bits = [] := List.length_eq_zero_iff.1 whole
    simp [bytesOf, List.take_of_length_le byte.le]
  | succ n ih =>
    have first : 8 ≤ bits.length := by omega
    have rest : (bits.drop 8).length = 8 * n := by simp [whole]; omega
    rw [bytesOf, List.take_append_of_le_length first, List.drop_append_of_le_length first, ih rest, bytesOf,
      List.cons_append]

theorem checkByte_lt (bytes : List Nat) : checkByte bytes < 256 := by
  unfold checkByte
  omega

/-- With the check byte, the bytes sum to 255 modulo 256. -/
theorem sum_checkByte (bytes : List Nat) : (bytes ++ [checkByte bytes]).sum % 256 = 255 := by
  simp only [checkByte, List.sum_append, List.sum_singleton]
  omega

/-! ## Words and frames (R185, R186) -/

theorem wordBits_msbFirst (len : WordLength) (w : OutCode) :
    wordBits len .msbFirst w = (List.range len.bits).map fun i => w.getLsbD (len.bits - 1 - i) := rfl

theorem wordBits_lsbFirst (len : WordLength) (w : OutCode) :
    wordBits len .lsbFirst w = (List.range len.bits).map fun i => w.getLsbD i := bitsMsbFirst_reverse _ _

@[simp] theorem length_wordBits (len : WordLength) (order : BitOrder) (w : OutCode) :
    (wordBits len order w).length = len.bits := by
  cases order <;> simp [wordBits]

/-- The bits of a frame before CHECK: SEQ, WORD and PAD make two or three whole bytes. -/
def bodyBits (len : WordLength) : Nat := if len.bits ≤ 12 then 16 else 24

theorem pad_eq (len : WordLength) : (8 - (4 + len.bits) % 8) % 8 = bodyBits len - (4 + len.bits) := by
  cases len <;> rfl

theorem four_add_bits_le (len : WordLength) : 4 + len.bits ≤ bodyBits len := by
  cases len <;> decide

theorem bodyBits_eq_bytes (len : WordLength) : bodyBits len = 8 * (bodyBits len / 8) := by
  cases len <;> rfl

theorem bodyBits_add_check (len : WordLength) : bodyBits len + 8 = if len.bits ≤ 12 then 24 else 32 := by
  unfold bodyBits
  split <;> rfl

section Frame

variable (len : WordLength) (order : BitOrder) (seq : BitVec 4) (w : OutCode) (bad : Bool)

theorem frameBody_eq : frameBody len order seq w =
    bitsMsbFirst 4 seq.toNat ++
      (wordBits len order w ++ List.replicate (bodyBits len - (4 + len.bits)) false) := by
  simp [frameBody, pad_eq]

@[simp] theorem length_frameBody : (frameBody len order seq w).length = bodyBits len := by
  have fits := four_add_bits_le len
  simp only [frameBody_eq, List.length_append, length_bitsMsbFirst, length_wordBits, List.length_replicate]
  omega

/-- The correct check byte of a frame. -/
def frameCheck : Nat := checkByte (bytesOf (bodyBits len / 8) (frameBody len order seq w))

theorem frameCheck_lt : frameCheck len order seq w < 2 ^ 8 := checkByte_lt _

theorem frameBits_eq : frameBits len order seq w bad = frameBody len order seq w ++
    bitsMsbFirst 8 (if bad then 255 - frameCheck len order seq w else frameCheck len order seq w) := by
  simp only [frameBits, length_frameBody, frameCheck]

@[simp] theorem length_frameBits : (frameBits len order seq w bad).length = bodyBits len + 8 := by
  simp [frameBits_eq]

theorem take_body_frameBits :
    (frameBits len order seq w bad).take (bodyBits len) = frameBody len order seq w := by
  rw [frameBits_eq, List.take_left' (length_frameBody len order seq w)]

theorem drop_body_frameBits : (frameBits len order seq w bad).drop (bodyBits len) =
    bitsMsbFirst 8 (if bad then 255 - frameCheck len order seq w else frameCheck len order seq w) := by
  rw [frameBits_eq, List.drop_left' (length_frameBody len order seq w)]

theorem take_seq_frameBits :
    (frameBits len order seq w bad).take 4 = [seq.getLsbD 3, seq.getLsbD 2, seq.getLsbD 1, seq.getLsbD 0] := by
  rw [frameBits_eq, frameBody_eq, List.append_assoc, List.take_left' (length_bitsMsbFirst 4 _)]
  rfl

theorem take_word_frameBits :
    ((frameBits len order seq w bad).drop 4).take len.bits = wordBits len order w := by
  rw [frameBits_eq, frameBody_eq, List.append_assoc, List.drop_left' (length_bitsMsbFirst 4 _),
    List.append_assoc, List.take_left' (length_wordBits len order w)]

theorem drop_word_frameBody : (frameBody len order seq w).drop (4 + len.bits) =
    List.replicate (bodyBits len - (4 + len.bits)) false := by
  rw [frameBody_eq, ← List.append_assoc, List.drop_left' (by simp)]

/-- R186: the bytes of a frame whose check byte is correct sum to 255 modulo 256. -/
theorem sum_frameBits : (bytesOf ((bodyBits len + 8) / 8) (frameBits len order seq w false)).sum % 256 = 255 := by
  have bytes : bytesOf ((bodyBits len + 8) / 8) (frameBits len order seq w false) =
      bytesOf (bodyBits len / 8) (frameBody len order seq w) ++ [frameCheck len order seq w] := by
    rw [frameBits_eq, Nat.add_div_right _ (by decide), bytesOf_append_byte _
      ((length_frameBody len order seq w).trans (bodyBits_eq_bytes len)) (length_bitsMsbFirst 8 _),
      bitsValue_bitsMsbFirst]
    exact congrArg (_ ++ [·]) (Nat.mod_eq_of_lt (frameCheck_lt len order seq w))
  rw [bytes]
  exact sum_checkByte _

/-- R132: CHECK_BAD inverts every bit of the check byte. -/
theorem drop_body_frameBits_bad : (frameBits len order seq w true).drop (bodyBits len) =
    ((frameBits len order seq w false).drop (bodyBits len)).map fun b => !b := by
  have complement : 255 - frameCheck len order seq w = 2 ^ 8 - (frameCheck len order seq w + 1) := by omega
  rw [drop_body_frameBits, drop_body_frameBits, if_pos rfl, complement,
    bitsMsbFirst_complement (frameCheck_lt len order seq w)]
  rfl

end Frame

/-! ## The move into transfer and the strobe (R184, R185, R187, R188) -/

/-- R185: a word with SWAP set goes in the order opposite to the lane's. -/
theorem effectiveOrder_eq (order : BitOrder) (swap : Bool) :
    effectiveOrder order swap = if swap = (order = .msbFirst : Bool) then .lsbFirst else .msbFirst := by
  cases order <;> cases swap <;> rfl

theorem bitPeriodOf_eq (divider : Nat) : bitPeriodOf divider = 20 * (divider + 1) :=
  Nat.mul_right_comm 2 (divider + 1) 10

theorem portBits_frame (len : WordLength) : portBits .frame len = if len.bits ≤ 12 then 24 else 32 := by
  cases len <;> rfl

section Moves

variable {c : LaneConfig} (now : Nat) (p : Port) (w : PortWord)

theorem moveToTransfer_level (level : c.portKind = .level) :
    moveToTransfer now c p w =
      { p with
        transfer := some ⟨wordBits c.wordLength
            (if w.swap = (c.bitOrder = .msbFirst : Bool) then .lsbFirst else .msbFirst) w.word,
          20 * (c.portDivider + 1), w.line, now + (c.wordLength.bits + 2) * (20 * (c.portDivider + 1))⟩ } := by
  simp only [moveToTransfer, level, wordTime, portBits, bitPeriodOf_eq, effectiveOrder_eq]

theorem moveToTransfer_frame (frame : c.portKind = .frame) :
    moveToTransfer now c p w =
      { p with
        transfer := some ⟨frameBits c.wordLength
            (if w.swap = (c.bitOrder = .msbFirst : Bool) then .lsbFirst else .msbFirst)
            (sequenceCarried p.seqCount w.sequence) w.word w.checkBad,
          20 * (c.portDivider + 1), w.line,
          now + ((if c.wordLength.bits ≤ 12 then 24 else 32) + 2) * (20 * (c.portDivider + 1))⟩
        seqCount := sequenceCarried p.seqCount w.sequence } := by
  simp only [moveToTransfer, frame, wordTime, portBits_frame, bitPeriodOf_eq, effectiveOrder_eq]

end Moves

section Strobe

variable {l : LaneId} {s : State} {tr : Transfer} (transfer : (s.lane l).port.transfer = some tr)
include transfer

theorem exec_portTransferComplete :
    exec (.portTransferComplete l) s =
      .next ((s.reach tr.strobeAt).setLane l ((s.lane l).strobe (max s.now tr.strobeAt) tr)) := by
  have row : exec (.portTransferComplete l) s = execPortTransferComplete l s := rfl
  rw [row, execPortTransferComplete, transfer]
  rfl

theorem exec_portTransferComplete_idle (idle : (s.lane l).port.pending = none) :
    exec (.portTransferComplete l) s = .next ((s.reach tr.strobeAt).setLane l { s.lane l with
      port := { (s.lane l).port with transfer := none, strobedLine := tr.line } }) := by
  rw [exec_portTransferComplete transfer]
  simp only [Lane.strobe, idle]

/-- `moved` is the port once the pending word, taken from its place after the strobe, has moved into transfer. -/
theorem exec_portTransferComplete_pending {w : PortWord} {moved : Port}
    (pending : (s.lane l).port.pending = some w)
    (moves : moveToTransfer (max s.now tr.strobeAt) (s.lane l).config
      { (s.lane l).port with transfer := none, pending := none, strobedLine := tr.line } w = moved) :
    exec (.portTransferComplete l) s =
      .next ((s.reach tr.strobeAt).setLane l { s.lane l with port := moved }) := by
  rw [exec_portTransferComplete transfer]
  simp only [Lane.strobe, pending, moves]

end Strobe

/-- Settles O23: the bit strings of words and frames, and what a strobe leaves at the port. -/
theorem strobeMovesThePort : Obligations.StrobeMovesThePort := by
  refine ⟨fun len w => ⟨wordBits_msbFirst len w, wordBits_lsbFirst len w⟩, ?frames, ?strobes⟩
  case frames =>
    intro len order seq w bad bits body
    have length : bits.length = bodyBits len + 8 := length_frameBits len order seq w bad
    have isBody : body = bodyBits len := by simp only [body, length, Nat.add_sub_cancel]
    rw [isBody, length]
    refine ⟨bodyBits_add_check len, take_seq_frameBits len order seq w bad, take_word_frameBits len order seq w bad,
      ?pad, ?sum, ?inverted⟩
    case pad =>
      rw [take_body_frameBits, drop_word_frameBody]
    case sum =>
      rintro rfl
      exact sum_frameBits len order seq w
    case inverted =>
      rintro rfl
      exact ⟨by rw [take_body_frameBits, take_body_frameBits], drop_body_frameBits_bad len order seq w⟩
  case strobes =>
    intro l s tr x now d len transfer
    exact ⟨exec_portTransferComplete_idle transfer, fun w pending =>
      ⟨fun level => exec_portTransferComplete_pending transfer pending (moveToTransfer_level _ _ w level),
        fun frame => exec_portTransferComplete_pending transfer pending (moveToTransfer_frame _ _ w frame)⟩⟩

end Sys2Proof.LanePort
end

section
/-! PROOFS. Integrity errors and the board: what a disturbance and a presence input change, the words of the latch, its
reading and clearing, and the link word that fails its parity (R135 to R137, R140, R144 to R146, R149, R189). -/

namespace Sys2Proof.FaultLatch

open Sys2Proof.Machine

/-! ## The board (R135, R189) -/

theorem exec_presenceChange (wait : Nat) (l : LaneId) (present : Bool) (s : State) :
    exec (.presenceChange wait l present) s = .next
      ((if s.resetLow then s else s.pass wait).modLane l fun x =>
        { x with port := { x.port with present := present } }) := rfl

theorem exec_storeCorruption {s : State} (high : s.resetLow = false) (wait : Nat) (item : Corruption) :
    exec (.storeCorruption wait item) s = .next (corrupt (settle (s.pass wait)) item) :=
  fromOutside_high wait (fun u => corrupt (settle u) item) high

/-- Settles O17. Each kind of disturbance is one case of `corrupt`. -/
theorem boardEventsChangeOneItem : Obligations.BoardEventsChangeOneItem :=
  ⟨exec_presenceChange, fun wait _ high =>
    ⟨fun c k v agrees => exec_storeCorruption high wait (.curvePoint c k v agrees),
      fun r f agrees => exec_storeCorruption high wait (.ruleRecord r f agrees),
      fun l i e agrees => exec_storeCorruption high wait (.playlistEntry l i e agrees)⟩⟩

/-! ## The words of the latch (R136, R144) -/

/-- The three words of a descriptor with 0 in the place of the latch state (R136). -/
def descriptorWords (d : Descriptor) : List Word :=
  match d.detail with
  | .traceReplay l a => [BitVec.ofNat 32 (2 ^ 6 + l.val * 2 ^ 8), d.cycle, BitVec.ofNat 32 a]
  | .traceRead tag a => [BitVec.ofNat 32 (2 ^ 7 + tag * 2 ^ 16), d.cycle, BitVec.ofNat 32 a]
  | .linkWord => [BitVec.ofNat 32 (2 ^ 2), d.cycle, 0]
  | .ruleCheck l r =>
    [BitVec.ofNat 32 (2 * 2 ^ 2 + 2 ^ 5 + 2 ^ 6 + l.val * 2 ^ 8), d.cycle, BitVec.ofNat 32 r.val]
  | .curveCheck l c n =>
    [BitVec.ofNat 32 (3 * 2 ^ 2 + 2 ^ 5 + 2 ^ 6 + l.val * 2 ^ 8), d.cycle, BitVec.ofNat 32 (c.val + n * 2 ^ 8)]
  | .playlistCheck l e =>
    [BitVec.ofNat 32 (4 * 2 ^ 2 + 2 ^ 5 + 2 ^ 6 + l.val * 2 ^ 8), d.cycle, BitVec.ofNat 32 e]

/-- A latch state's code put into the first of three words. -/
def withState (code : Nat) (words : List Word) : List Word :=
  words.set 0 (words.getD 0 0 + BitVec.ofNat 32 code)

theorem withState_ofNat (code n : Nat) (words : List Word) :
    withState code (BitVec.ofNat 32 n :: words) = BitVec.ofNat 32 (code + n) :: words := by
  rw [Nat.add_comm, BitVec.ofNat_add]
  rfl

/-- HELD and HELD_NESTED send their descriptor alike, after their codes. -/
theorem latchWords_held {k : LatchState} {d : Descriptor} (held : k = .held d ∨ k = .heldNested d) :
    latchWords k = withState (latchStateCode k) (descriptorWords d) := by
  obtain ⟨detail, cycle⟩ := d
  obtain rfl | rfl := held <;> cases detail <;>
    simp [latchWords, descriptorWords, withState_ofNat, latchStateCode, packWord, numberWord, ← Nat.add_assoc]

/-! ## READ_LATCH, CLEAR_LATCH (R145, R146) -/

section Commands

variable {s : State} {p : Place} {rest : List Place} (headed : Headed s p rest)
include headed

theorem exec_readLatch (carried : CarriedOut .readLatch p) :
    exec .readLatch s = .next (replied (settle s) p rest ⟨.done, p.tag, p.code, latchPayload s.latch⟩) := by
  rw [← settle_latch s]
  change execReadLatch s = _
  exact takeRecord_reply headed carried (isCommand_carriedOut carried) rfl rfl

theorem exec_clearLatch (carried : CarriedOut .clearLatch p) :
    exec .clearLatch s = .next (replied { settle s with latch := ⟨.empty, 0, 0⟩ } p rest
      ⟨.done, p.tag, p.code, latchPayload s.latch⟩) := by
  rw [← settle_latch s]
  change execClearLatch s = _
  exact takeRecord_reply headed carried (isCommand_carriedOut carried) rfl rfl

end Commands

/-- Settles O39: the words by latch state, and the two rows, before which `settle` leaves the latch as it is. -/
theorem latchIsReadAndCleared : Obligations.LatchIsReadAndCleared := by
  refine ⟨fun ⟨state, softLater, hardLater⟩ => ?words, fun s p rest headed =>
    ⟨exec_readLatch headed, exec_clearLatch headed⟩⟩
  cases state with
  | empty => rfl
  | held d => exact congrArg (· ++ _) (latchWords_held (.inl rfl))
  | heldNested d => exact congrArg (· ++ _) (latchWords_held (.inr rfl))

/-! ## Notices (R162) -/

/-- An offered notice changes the Return Sender alone. -/
theorem offerNotice_eq_with (s : State) (kind : NoticeKind) (words : List Word) :
    offerNotice s kind words = { s with ret := (offerNotice s kind words).ret } := by
  unfold offerNotice
  split
  · split <;> rfl
  · rfl

/-! ## Soft reports (R140) -/

section Soft

variable {s : State} {d : Descriptor} (soft : d.isHard = false)
include soft

theorem latchTakes_soft (held : s.latch.state ≠ .empty) : latchTakes s d = countSoft s := by
  unfold latchTakes
  split
  · next empty => exact absurd empty held
  · simp [soft]
  · simp [soft]

/-- A SOFT report moves the latch and halts no lane (R138, R141). -/
theorem takeReport_soft : takeReport s d = latchTakes s d := by
  have lane : d.detail.hardLane = none := by simpa [Descriptor.isHard] using soft
  have stays : nests s.latch.state d = false := by cases h : s.latch.state <;> simp [nests, soft]
  simp [takeReport, stays, lane]

end Soft

theorem latchTakes_empty {s : State} (d : Descriptor) (empty : s.latch.state = .empty) :
    latchTakes s d = holdDescriptor s d s.latch.softLater := by
  simp only [latchTakes, empty]

/-! ## LINK_WORD_BAD (R149) -/

/-- A bad word counted and the open record marked CORRUPT, before the report. -/
def badWordMarked (s : State) : State :=
  { s with
    link := { s.link with badWords := countUp s.link.badWords }
    cmd := { s.cmd with queue := match s.link.assembler with
      | .opened _ => onOpenRecord Place.corrupted s.cmd.queue
      | _ => s.cmd.queue } }

theorem takeBadWord_eq (s : State) :
    takeBadWord s = latchTakes (badWordMarked s) ⟨.linkWord, s.link.currentCycle⟩ := by
  refine Eq.trans ?_ (takeReport_soft rfl)
  unfold takeBadWord badWordMarked
  cases h : s.link.assembler <;> simp [h, report, descriptorOf]

theorem takeBadWord_held {s : State} (held : s.latch.state ≠ .empty) :
    takeBadWord s = countSoft (badWordMarked s) :=
  (takeBadWord_eq s).trans (latchTakes_soft rfl held)

theorem takeBadWord_empty {s : State} (empty : s.latch.state = .empty) : takeBadWord s =
    offerNotice { badWordMarked s with latch := { s.latch with state := .held ⟨.linkWord, s.link.currentCycle⟩ } }
      .latchSet [5, s.link.currentCycle, 0, BitVec.ofNat 32 s.latch.softLater, BitVec.ofNat 32 s.latch.hardLater] :=
  (takeBadWord_eq s).trans (latchTakes_empty _ empty)

theorem takeBadWord_frame (s : State) : TickFrame (badWordMarked s) (takeBadWord s) :=
  takeBadWord_eq s ▸ tickFrame_latchTakes _ _

theorem takeBadWord_latch (s : State) : (takeBadWord s).latch = match s.latch.state with
    | .empty => { s.latch with state := .held ⟨.linkWord, s.link.currentCycle⟩ }
    | _ => { s.latch with softLater := countUp s.latch.softLater } := by
  split
  · next empty => rw [takeBadWord_empty empty, offerNotice_latch]
  · next held => rw [takeBadWord_held held]; rfl

theorem takeBadWord_ret_empty {s : State} (empty : s.latch.state = .empty) : (takeBadWord s).ret =
    (offerNotice s .latchSet [5, s.link.currentCycle, 0,
      BitVec.ofNat 32 s.latch.softLater, BitVec.ofNat 32 s.latch.hardLater]).ret := by
  rw [takeBadWord_empty empty]
  refine FaultRules.offerNotice_ret_congr ?_ _ _
  rfl

/-- No lane, no rule and no block is touched: a SOFT report orders no halt. -/
theorem takeBadWord_eq_with (s : State) : takeBadWord s = { s with
    link := (takeBadWord s).link, cmd := (takeBadWord s).cmd
    latch := (takeBadWord s).latch, ret := (takeBadWord s).ret } := by
  by_cases empty : s.latch.state = .empty
  · rw [takeBadWord_empty empty, offerNotice_eq_with]
    rfl
  · rw [takeBadWord_held empty]
    rfl

/-- Settles O15: `settle` leaves the link, the Command Unit and the latch as they are, and the word's own effect is
read off `takeBadWord`. -/
theorem badWordIsCountedAndReported : Obligations.BadWordIsCountedAndReported := by
  intro wait s high u
  have settled : TickFrame (s.pass wait) u := tickFrame_settle _
  have link : u.link = s.link := settled.link
  have cmd : u.cmd = s.cmd := settled.cmd
  have latch : u.latch = s.latch := settle_latch _
  refine ⟨takeBadWord u, fromOutside_high wait (fun v => takeBadWord (settle v)) high, ?link, ?cmd, ?latch,
    fun held => ?ret, fun empty => ?latchSet, takeBadWord_eq_with u⟩
  case link =>
    rw [← link]
    exact (takeBadWord_frame u).link
  case cmd =>
    rw [← link, ← cmd]
    exact (takeBadWord_frame u).cmd
  case latch =>
    rw [← link, ← latch]
    exact takeBadWord_latch u
  case ret =>
    rw [takeBadWord_held (latch ▸ held)]
    rfl
  case latchSet =>
    rw [← link, ← latch]
    exact takeBadWord_ret_empty (latch ▸ empty)

end Sys2Proof.FaultLatch
end

section
/-! PROOFS. The return direction: what becomes of an offered notice, the headers of replies and notices, and the choice
of the next word (R143, R148, R160, R162, R178; log 25). -/

namespace Sys2Proof.ReturnDirection

open Sys2Proof.Machine

/-! ## Offered notices (R162, R178) -/

section Offers

variable {s : State} {kind : NoticeKind} (words : List Word)

theorem offerNotice_disabled (off : noticeEnabled s kind = false) : offerNotice s kind words = s := by
  simp [offerNotice, off]

theorem offerNotice_queued (on : noticeEnabled s kind = true) (room : s.ret.notices.length < 16) :
    offerNotice s kind words = { s with ret := { s.ret with notices := s.ret.notices ++ [⟨kind, words⟩] } } := by
  simp [offerNotice, on, room, Config.recordPlaces]

theorem offerNotice_dropped (on : noticeEnabled s kind = true) (full : 16 ≤ s.ret.notices.length) :
    offerNotice s kind words = { s with ret := { s.ret with noticesDropped := countUp s.ret.noticesDropped } } := by
  simp [offerNotice, on, Nat.not_lt.2 full, Config.recordPlaces]

end Offers

/-! ## Headers (R143, R162, R171) -/

theorem replyHeader_eq (attention : Bool) (r : Reply) : replyHeader attention r =
    BitVec.ofNat 32 (r.status.code * 2 ^ 24 + r.tag * 2 ^ 16 + r.payload.length * 2 ^ 10 +
      flagBit attention * 2 ^ 9 + r.code) := by
  simp [replyHeader, packWord, ← Nat.add_assoc]

theorem noticeHeader_eq (attention : Bool) (n : Notice) : noticeHeader attention n =
    BitVec.ofNat 32 (n.payload.length * 2 ^ 10 + flagBit attention * 2 ^ 9 + 2 ^ 8 + n.kind.code) := by
  simp [noticeHeader, packWord, ← Nat.add_assoc]

theorem restOf_eq (words : List Word) : restOf words = if words = [] then none else some words := by
  cases words <;> rfl

/-! ## The choice of the next word (R160) -/

/-- A word put on a direction whose sender stands as `r`, with `left` still to go of its record. -/
def sent (v : State) (r : ReturnSender) (kind : Nat) (data : Word) (left : List Word) : State :=
  { v with ret := { r with
    inTransfer := if left = [] then none else some left
    slotEnd := some (v.now + 16)
    wire := some (makeLinkWord kind data) } }

theorem sendWord_restOf (v : State) (r : ReturnSender) (kind : OutKind) (data : Word) (left : List Word) :
    sendWord { v with ret := r } kind data (restOf left) = sent v r kind.code data left := by
  rw [restOf_eq]
  rfl

section Choice

variable {v : State}

theorem returnGoesOn_payload {w : Word} {left : List Word} (transfer : v.ret.inTransfer = some (w :: left)) :
    returnGoesOn v = sent v v.ret 3 w left := by
  rw [returnGoesOn, transfer]
  exact sendWord_restOf v v.ret .payload w left

theorem returnGoesOn_choice (idle : v.ret.inTransfer = none) : returnGoesOn v = sendNext v := by
  rw [returnGoesOn, idle]

theorem sendNext_reply {r : Reply} {rest : List Reply} (replies : v.ret.replies = r :: rest) :
    sendNext v = sent v { v.ret with replies := rest } 2 (replyHeader v.latch.attention r) r.payload := by
  rw [sendNext, replies]
  exact sendWord_restOf v _ .header _ _

theorem sendNext_notice {n : Notice} {rest : List Notice} (replies : v.ret.replies = [])
    (notices : v.ret.notices = n :: rest) :
    sendNext v = sent v { v.ret with notices := rest } 2 (noticeHeader v.latch.attention n) n.payload := by
  rw [sendNext, replies, notices]
  exact sendWord_restOf v _ .header _ _

theorem sendNext_tap {w : Word} {rest : List Word} (replies : v.ret.replies = []) (notices : v.ret.notices = [])
    (taps : v.ret.taps = w :: rest) : sendNext v = sent v { v.ret with taps := rest } 1 w [] := by
  rw [sendNext, replies, notices, taps]
  rfl

theorem sendNext_free (replies : v.ret.replies = []) (notices : v.ret.notices = []) (taps : v.ret.taps = []) :
    sendNext v = { v with ret := { v.ret with slotEnd := none, wire := none } } := by
  rw [sendNext, replies, notices, taps]

end Choice

/-! ## RETURN_WORD_SENT (R160; log 25) -/

theorem hasWork_iff (r : ReturnSender) : r.hasWork = true ↔ r.replies ≠ [] ∨ r.notices ≠ [] ∨ r.taps ≠ [] := by
  simp [ReturnSender.hasWork, or_assoc]

theorem settle_slotEnd (s : State) : (settle s).ret.slotEnd = s.ret.slotEnd := by
  rw [(FaultRules.endFrame_settle s).ret]

theorem settle_inTransfer (s : State) : (settle s).ret.inTransfer = s.ret.inTransfer := by
  rw [(FaultRules.endFrame_settle s).ret]

theorem exec_returnWordSent_slot {s : State} {t : Nat} (slot : s.ret.slotEnd = some t) :
    exec .returnWordSent s = .next (returnGoesOn ((settle s).reach t)) := by
  change execReturnWordSent s = _
  simp only [execReturnWordSent, settle_slotEnd, slot]

theorem exec_returnWordSent_free {s : State} (slot : s.ret.slotEnd = none)
    (work : (settle s).ret.hasWork = true) : exec .returnWordSent s = .next (returnGoesOn (settle s)) := by
  change execReturnWordSent s = _
  simp only [execReturnWordSent, settle_slotEnd, slot]
  exact whenPossible_of _ _ work

/-- Settles O33: the branches of an offer, and the branches of `returnGoesOn` from the state that the row reaches. -/
theorem returnSenderChooses : Obligations.ReturnSenderChooses := by
  refine ⟨?offers, ?sends⟩
  case offers =>
    intro s kind words enable t
    have enabled : noticeEnabled s kind = s.ret.mask.getLsbD enable := by cases kind <;> rfl
    rw [← enabled]
    exact ⟨offerNotice_disabled words, offerNotice_queued words, offerNotice_dropped words⟩
  case sends =>
    intro s v reached send attention
    have goesOn : exec .returnWordSent s = .next (returnGoesOn v) ∧ v.ret.inTransfer = s.ret.inTransfer := by
      obtain ⟨t, slot, rfl⟩ | ⟨slot, rfl, work⟩ := reached
      · exact ⟨exec_returnWordSent_slot slot, settle_inTransfer s⟩
      · exact ⟨exec_returnWordSent_free slot ((hasWork_iff _).2 work), settle_inTransfer s⟩
    obtain ⟨row, transfer⟩ := goesOn
    have flag : flagBit v.latch.attention = attention := by
      simp only [attention, Latch.attention]
      cases v.latch.state <;> rfl
    rw [row, ← transfer, ← flag]
    refine ⟨fun w left going => congrArg _ (returnGoesOn_payload going), fun idle => ?_⟩
    rw [returnGoesOn_choice idle]
    refine ⟨fun r rest replies => ?_, fun n rest replies notices => ?_, fun w rest replies notices taps =>
      congrArg _ (sendNext_tap replies notices taps), fun replies notices taps =>
      congrArg _ (sendNext_free replies notices taps)⟩
    · rw [← replyHeader_eq]
      exact congrArg _ (sendNext_reply replies)
    · rw [← noticeHeader_eq]
      exact congrArg _ (sendNext_notice replies notices)

end Sys2Proof.ReturnDirection
end

section
/-! PROOFS. The places of the command queue and of the Return Sender's queues, through a whole tick of a lane (R158,
R159, R162, R163, R165): whatever a tick does, it puts a record or a word in a queue only by an offer, and an offer
finds a free place or drops. -/

namespace Sys2Proof.QueuePlaces

open Sys2Proof.Machine

/-! ## Queues that keep within their places -/

/-- Where the queues of `s` keep within their places, those of `t` do. -/
def QueuesKept (s t : State) : Prop := s.queuesFit → t.queuesFit

theorem QueuesKept.refl (s : State) : QueuesKept s s := id

theorem QueuesKept.trans {s t u : State} (a : QueuesKept s t) (b : QueuesKept t u) : QueuesKept s u :=
  fun fit => b (a fit)

theorem queuesKept_foldl {α : Type} (f : State → α → State) (h : ∀ s a, QueuesKept s (f s a)) (l : List α)
    (s : State) : QueuesKept s (l.foldl f s) := by
  induction l generalizing s with
  | nil => exact .refl s
  | cons a rest ih => exact (h s a).trans (ih _)

/-- Queues that have not grown keep within their places. -/
theorem QueuesKept.of_le {s t : State} (queue : t.cmd.queue.length ≤ s.cmd.queue.length)
    (replies : t.ret.replies.length ≤ s.ret.replies.length)
    (notices : t.ret.notices.length ≤ s.ret.notices.length)
    (taps : t.ret.taps.length ≤ s.ret.taps.length) : QueuesKept s t :=
  fun ⟨inQueue, inReplies, inNotices, inTaps⟩ =>
    ⟨queue.trans inQueue, replies.trans inReplies, notices.trans inNotices, taps.trans inTaps⟩

/-- What leaves the command queue and the Return Sender as they are keeps every queue within its places. -/
theorem QueuesKept.of_same {s t : State} (queue : t.cmd.queue = s.cmd.queue) (ret : t.ret = s.ret) :
    QueuesKept s t :=
  .of_le (by rw [queue]) (by rw [ret]) (by rw [ret]) (by rw [ret])

/-- A queue with a free place keeps within its places when one more takes it. -/
theorem length_concat_le {α : Type} {queue : List α} {places : Nat} {a : α} (room : queue.length < places) :
    (queue ++ [a]).length ≤ places := by
  rw [List.length_append]
  exact room

variable (s : State)

theorem queuesKept_mapLanes (f : LaneId → Lane → Lane) : QueuesKept s (s.mapLanes f) :=
  .of_same (by rw [State.mapLanes_cmd]) (State.mapLanes_ret s f)

theorem queuesKept_mapRules (f : RuleId → Rule → Rule) : QueuesKept s (s.mapRules f) :=
  .of_same (by rw [State.mapRules_cmd]) (State.mapRules_ret s f)

theorem queuesKept_setLane (l : LaneId) (x : Lane) : QueuesKept s (s.setLane l x) := .of_same rfl rfl

theorem queuesKept_modLane (l : LaneId) (f : Lane → Lane) : QueuesKept s (s.modLane l f) := .of_same rfl rfl

theorem queuesKept_setRule (r : RuleId) (x : Rule) : QueuesKept s (s.setRule r x) := .of_same rfl rfl

theorem queuesKept_modRule (r : RuleId) (f : Rule → Rule) : QueuesKept s (s.modRule r f) := .of_same rfl rfl

theorem queuesKept_setBlock (b : BlockId) (x : Block) : QueuesKept s (s.setBlock b x) := .of_same rfl rfl

theorem queuesKept_setGroup (g : GroupId) (x : BankGroup) : QueuesKept s (s.setGroup g x) := .of_same rfl rfl

theorem queuesKept_reach (time : Nat) : QueuesKept s (s.reach time) := .of_same rfl rfl

theorem queuesKept_dir (d : Directory) : QueuesKept s { s with dir := d } := .of_same rfl rfl

theorem queuesKept_latch (k : Latch) : QueuesKept s { s with latch := k } := .of_same rfl rfl

theorem queuesKept_link (k : Link) : QueuesKept s { s with link := k } := .of_same rfl rfl

/-! ## Offers (R162, R163) -/

/-- A notice takes a free place or is dropped. -/
theorem queuesKept_offerNotice (kind : NoticeKind) (words : List Word) :
    QueuesKept s (offerNotice s kind words) := by
  rintro ⟨queue, replies, notices, taps⟩
  unfold offerNotice
  split
  · split
    · next room => exact ⟨queue, replies, length_concat_le room, taps⟩
    · exact ⟨queue, replies, notices, taps⟩
  · exact ⟨queue, replies, notices, taps⟩

/-- A TAP word takes a free place or is dropped. -/
theorem queuesKept_offerTap (word : Word) : QueuesKept s (offerTap s word) := by
  rintro ⟨queue, replies, notices, taps⟩
  unfold offerTap
  split
  · next room => exact ⟨queue, replies, notices, length_concat_le room⟩
  · exact ⟨queue, replies, notices, taps⟩

theorem queuesKept_handOver (l : LaneId) (h : HandOver) : QueuesKept s (handOver s l h) := by
  unfold handOver
  dsimp only
  split
  · exact (queuesKept_modLane s l _).trans (queuesKept_offerTap _ _)
  · exact queuesKept_modLane s l _

theorem queuesKept_offerRuleEvent (i : RuleId) (event : RuleEvent) : QueuesKept s (offerRuleEvent s i event) := by
  unfold offerRuleEvent
  dsimp only
  split
  · exact queuesKept_offerNotice s _ _
  · exact .refl s

/-! ## Ends of delays and durations, lanes that leave play, reports -/

theorem queuesKept_endActivation (i : RuleId) : QueuesKept s (endActivation s i) :=
  (queuesKept_mapLanes s _).trans <| (queuesKept_modRule _ i _).trans <|
    (queuesKept_offerRuleEvent _ i _).trans <| (queuesKept_mapRules _ _).trans (queuesKept_modRule _ i _)

theorem queuesKept_settleBut (held : List RuleId) : QueuesKept s (settleBut held s) := by
  unfold settleBut
  split
  · exact (queuesKept_mapRules s _).trans (queuesKept_foldl _ queuesKept_endActivation _ _)
  · exact .refl s

theorem queuesKept_settle : QueuesKept s (settle s) := settleBut_nil ▸ queuesKept_settleBut s []

theorem queuesKept_ruleTableMark (number : Word) : QueuesKept s (ruleTableMark s number) :=
  (queuesKept_settle s).trans (queuesKept_mapRules _ _)

theorem queuesKept_dropUse (blocks : List BlockId) : QueuesKept s (dropUse s blocks) :=
  queuesKept_foldl _ (fun s b => queuesKept_setBlock s b _) blocks s

theorem queuesKept_releaseLane (l : LaneId) : QueuesKept s (releaseLane s l) :=
  (queuesKept_mapLanes s _).trans <| (queuesKept_mapRules _ _).trans <|
    (queuesKept_dropUse _ _).trans (queuesKept_modLane _ l _)

theorem queuesKept_laneOff (l : LaneId) : QueuesKept s (laneOff s l) :=
  (queuesKept_releaseLane s l).trans (queuesKept_modLane _ l _)

theorem queuesKept_haltLane (l : LaneId) : QueuesKept s (haltLane s l) := by
  unfold haltLane
  split
  · exact (queuesKept_releaseLane s l).trans <| (queuesKept_modLane _ l _).trans <|
      (queuesKept_offerNotice _ _ _).trans (queuesKept_handOver _ l _)
  · exact .refl s

theorem queuesKept_holdDescriptor (d : Descriptor) (softLater : Nat) :
    QueuesKept s (holdDescriptor s d softLater) :=
  (queuesKept_latch s _).trans (queuesKept_offerNotice _ _ _)

theorem queuesKept_latchTakes (d : Descriptor) : QueuesKept s (latchTakes s d) := by
  unfold latchTakes
  split
  · exact queuesKept_holdDescriptor s _ _
  · split
    · split
      · exact queuesKept_latch s _
      · exact queuesKept_holdDescriptor s _ _
    · exact queuesKept_latch s _
  · split <;> exact queuesKept_latch s _

theorem queuesKept_takeReport (d : Descriptor) : QueuesKept s (takeReport s d) := by
  refine (queuesKept_latchTakes s d).trans ?_
  unfold takeReport
  dsimp only
  split
  · exact queuesKept_foldl _ queuesKept_haltLane _ _
  · split
    · exact queuesKept_haltLane _ _
    · exact .refl _

theorem queuesKept_report (e : ErrorDetail) : QueuesKept s (report s e) := queuesKept_takeReport s _

/-! ## Steps of a tick -/

theorem queuesKept_countApplied (rules : List RuleId) : QueuesKept s (countApplied s rules) :=
  queuesKept_foldl _ (fun s i => queuesKept_modRule s i _) rules s

theorem queuesKept_sourceStage (l : LaneId) : QueuesKept s (sourceStage s l).1 := by
  unfold sourceStage
  dsimp only
  split
  · exact queuesKept_countApplied s _
  · split
    · exact queuesKept_setLane s l _
    · exact .refl s
    · split <;> exact queuesKept_setLane s l _

theorem queuesKept_activate (l : LaneId) (i : RuleId) : QueuesKept s (activate s l i).1 :=
  (queuesKept_modLane s l _).trans <| (queuesKept_modRule _ i _).trans <|
    (queuesKept_offerRuleEvent _ i _).trans (queuesKept_mapRules _ _)

theorem queuesKept_missAttempt (i : RuleId) : QueuesKept s (missAttempt s i) :=
  (queuesKept_modRule s i _).trans <| (queuesKept_offerRuleEvent _ i _).trans (queuesKept_modRule _ i _)

theorem queuesKept_vacate (i : RuleId) : QueuesKept s (vacate s i) :=
  (queuesKept_mapLanes s _).trans (queuesKept_setRule _ i _)

theorem queuesKept_runAttempts (l : LaneId) (fuel : Nat) (todo done : List RuleId) (s : State) :
    QueuesKept s (runAttempts l fuel todo done s).state := by
  induction fuel generalizing todo done s with
  | zero => exact .refl s
  | succ fuel ih =>
    cases todo with
    | nil => exact .refl s
    | cons i todo =>
      simp only [runAttempts]
      split
      · split
        · exact (queuesKept_activate s l i).trans (ih _ _ _)
        · exact (queuesKept_missAttempt s i).trans (ih _ _ _)
      · exact queuesKept_vacate s i

theorem queuesKept_step2 (l : LaneId) (p : Presented) : QueuesKept s (step2 s l p).state := by
  cases p with
  | underrun => exact .refl s
  | frozen _ => exact (queuesKept_mapRules s _).trans (queuesKept_runAttempts l _ _ _ _)
  | code e mark =>
    exact (queuesKept_mapRules s _).trans <| (queuesKept_modLane _ l _).trans <|
      (queuesKept_mapRules _ _).trans (queuesKept_runAttempts l _ _ _ _)

theorem queuesKept_step3 (l : LaneId) : QueuesKept s (step3 s l).state := by
  unfold step3
  dsimp only
  split
  · exact queuesKept_vacate s _
  · exact (queuesKept_modLane s l _).trans (queuesKept_mapRules _ _)

theorem queuesKept_valueStage (rules : List RuleId) (s : State) (e : Int) (clamped : Bool) :
    QueuesKept s (valueStage rules s e clamped).1 := by
  induction rules generalizing s e clamped with
  | nil => exact .refl s
  | cons i rest ih => exact (queuesKept_setRule s i _).trans (ih _ _ _)

theorem queuesKept_step4 (upper : State → State) (l : LaneId) (gates : List (RuleId × Bool)) (e : Int) :
    QueuesKept s (step4 upper s l gates e).state := by
  have valued (clamped : Bool) := (queuesKept_valueStage (applying s gates .value) s e false).trans
    (queuesKept_modLane _ l (Lane.countSaturation clamped))
  unfold step4
  dsimp only
  split
  · exact (valued _).trans (queuesKept_settle _)
  · exact (valued _).trans <| (queuesKept_countApplied _ _).trans (.of_same rfl rfl)

theorem queuesKept_timeStage (l : LaneId) (gates : List (RuleId × Bool)) (p : Path) :
    QueuesKept s (timeStage s l gates p).1 := by
  unfold timeStage
  dsimp only
  split
  · exact .refl s
  · exact queuesKept_countApplied s _

theorem queuesKept_finishTick (l : LaneId) (gates : List (RuleId × Bool)) (c : Chosen) :
    QueuesKept s (finishTick s l gates c) :=
  (queuesKept_countApplied s _).trans (queuesKept_handOver _ l _)

theorem queuesKept_endOfPlay (l : LaneId) (played : Option FetchWord) : QueuesKept s (endOfPlay s l played) := by
  have off (reason : EndReason) : QueuesKept s (offerLaneEnded (laneOff (settle s) l) l reason) :=
    (queuesKept_settle s).trans <| (queuesKept_laneOff _ l).trans (queuesKept_offerNotice _ _ _)
  unfold endOfPlay
  split
  · exact .refl s
  · dsimp only
    split
    · exact off _
    · split
      · exact off _
      · exact .refl s

theorem queuesKept_lastSteps (c : Course) (l : LaneId) (source : Sourced) (gates : List (RuleId × Bool)) :
    QueuesKept s (lastSteps c s l source gates).state := by
  unfold lastSteps
  split
  · exact (queuesKept_countApplied s _).trans (queuesKept_finishTick _ l _ _)
  · exact queuesKept_finishTick s l _ _
  · next e _ _ =>
    have converted := queuesKept_step4 s c.upper l gates e
    split
    · next k => rw [k] at converted; exact converted
    · next k =>
      rw [k] at converted
      exact converted.trans <| (queuesKept_timeStage _ l gates _).trans <|
        (queuesKept_finishTick _ l _ _).trans (queuesKept_endOfPlay _ l _)

theorem queuesKept_lostTick (l : LaneId) : QueuesKept s (lostTick s l) :=
  (queuesKept_modLane s l _).trans (queuesKept_handOver _ l _)

/-! ## Whole ticks, on any course -/

/-- All that a course brings into a tick keeps the queues within their places. -/
structure CourseKeepsQueues (c : Course) : Prop where
  takeEnds : ∀ s, QueuesKept s (c.takeEnds s)
  tell : ∀ s e, QueuesKept s (c.tell s e)
  afterSource : ∀ s, QueuesKept s (c.afterSource s)
  afterTriggers : ∀ attempted s, QueuesKept s (c.afterTriggers attempted s)

section Ticks

variable {s} {c : Course} (keeps : CourseKeepsQueues c) (l : LaneId)

include keeps

theorem queuesKept_told (e : Option ErrorDetail) : QueuesKept s (c.told s e) := by
  cases e with
  | none => exact .refl s
  | some e => exact keeps.tell s e

theorem queuesKept_laterSteps (source : Sourced) : QueuesKept s (laterSteps c s l source).state := by
  have triggered := (keeps.afterSource s).trans (queuesKept_step2 (c.afterSource s) l source.presented)
  unfold laterSteps
  split
  · next k => rw [k] at triggered; exact triggered
  · next t attempted k =>
    rw [k] at triggered
    have counted := (triggered.trans (keeps.afterTriggers attempted t)).trans
      (queuesKept_step3 (c.afterTriggers attempted t) l)
    split
    · next k => rw [k] at counted; exact counted
    · next k => rw [k] at counted; exact counted.trans (queuesKept_lastSteps _ c l source _)

theorem queuesKept_fullTick : QueuesKept s (fullTick c s l).1 := by
  have sourced := (queuesKept_modLane s l Lane.countTickTaken).trans (queuesKept_sourceStage _ l)
  unfold fullTick
  dsimp only
  generalize sourceStage (s.modLane l Lane.countTickTaken) l = source at sourced ⊢
  have later := (sourced.trans (queuesKept_told keeps source.2.error)).trans
    (queuesKept_laterSteps keeps l source.2)
  split
  · next k => rw [k] at later; exact later
  · next k => rw [k] at later; exact later.trans (keeps.tell _ _)

theorem queuesKept_haltedTick : QueuesKept s (haltedTick c s l).1 := by
  have counted := queuesKept_modLane s l Lane.countTickTaken
  unfold haltedTick
  dsimp only
  split
  · exact counted.trans (queuesKept_handOver _ l _)
  · have sensed (f : Lane → Lane) := counted.trans (queuesKept_modLane _ l f)
    split
    · exact (sensed _).trans <| (keeps.tell _ _).trans (queuesKept_handOver _ l _)
    · exact (sensed _).trans <| (queuesKept_modLane _ l _).trans (queuesKept_handOver _ l _)

theorem queuesKept_laneTick : QueuesKept s (laneTick c s l).1 := by
  refine (keeps.takeEnds s).trans ?_
  unfold laneTick
  dsimp only
  split
  · exact .refl _
  · exact .refl _
  · split
    · exact queuesKept_lostTick _ l
    · exact queuesKept_fullTick keeps l
  · exact queuesKept_fullTick keeps l
  · split
    · exact queuesKept_haltedTick keeps l
    · exact .refl _

end Ticks

end Sys2Proof.QueuePlaces
end

section
/-! PROOFS. The places of the queues where records are answered and taken within other events: a tick with what is
taken within it, a soft reset before what an event sends has arrived, cycle marks and curve loads (R79, R126, R147,
R164, R165, R174). -/

namespace Sys2Proof.QueuePlaces

open Sys2Proof.Machine

variable (s : State)

/-! ## Answers (R166, R174) -/

/-- A reply takes a free place or waits in the unit; no answer makes the command queue longer. -/
theorem queuesKept_placeReply (r : Reply) : QueuesKept s (placeReply s r) := by
  rintro ⟨queue, replies, notices, taps⟩
  unfold placeReply
  split
  · next room =>
    exact ⟨(List.tail_sublist _).length_le.trans queue, length_concat_le room, notices, taps⟩
  · refine ⟨?_, replies, notices, taps⟩
    dsimp only
    split
    · exact Nat.zero_le 8
    · next held => rwa [held] at queue

theorem queuesKept_holdUnit (job : Job) : QueuesKept s (holdUnit s job) := by
  refine .of_le ?_ (.refl) (.refl) (.refl)
  unfold holdUnit
  dsimp only
  split
  · exact Nat.zero_le _
  · next held => exact Nat.le_of_eq (by rw [held]; rfl)

theorem queuesKept_answer (p : Place) (r : State × Answer) : QueuesKept r.1 (answer p r) := by
  unfold answer
  split
  · exact queuesKept_placeReply _ _
  · exact queuesKept_holdUnit _ _

theorem queuesKept_takeHead (c : Command) {run : Place → State → State × Answer}
    (h : ∀ p s, QueuesKept s (run p s).1) : QueuesKept s (takeHead c run s) := by
  unfold takeHead
  split
  · next p _ =>
    split
    · split
      · exact queuesKept_answer p (s, refusedWith _)
      · exact (h p s).trans (queuesKept_answer p _)
    · exact .refl s
  · exact .refl s

/-! ## Within a tick (R126) -/

theorem queuesKept_disarmAll (chosen : RuleId → Bool) : QueuesKept s (disarmAll s chosen).1 :=
  (queuesKept_mapLanes s _).trans (queuesKept_mapRules _ _)

theorem queuesKept_runDisarmRule (p : Place) : QueuesKept s (runDisarmRule p s).1 := by
  unfold runDisarmRule
  split
  · exact .refl s
  · split
    · exact .refl s
    · exact queuesKept_disarmAll s _

theorem queuesKept_runDisarmGroup (p : Place) : QueuesKept s (runDisarmGroup p s).1 := by
  unfold runDisarmGroup
  split
  · exact queuesKept_disarmAll s _
  · exact .refl s

/-- A command of two forms or modes refuses a record of another (R169). -/
theorem queuesKept_ite_refused {b : Prop} [Decidable b] {s : State} {r : State × Answer} (st : Status)
    (h : QueuesKept s r.1) : QueuesKept s (if b then r else (s, refusedWith st)).1 := by
  split
  · exact h
  · exact .refl s

theorem queuesKept_runDisarm (p : Place) (s : State) : QueuesKept s (runDisarm p s).1 := by
  unfold runDisarm
  split
  · exact queuesKept_runDisarmRule s p
  · exact queuesKept_ite_refused _ (queuesKept_runDisarmGroup s p)

theorem queuesKept_takeWithin (e : TickEvent) : QueuesKept s (takeWithin s e) := by
  cases e with
  | disarm => exact queuesKept_takeHead s _ queuesKept_runDisarm
  | ruleEnd r =>
    unfold takeWithin
    dsimp only
    split
    · exact queuesKept_endActivation s r
    · exact .refl s

theorem queuesKept_takeLate (attempted : List RuleId) (s : State) (e : TickEvent) :
    QueuesKept s (takeLate attempted s e) := by
  unfold takeLate
  dsimp only
  split
  · exact .refl s
  · exact queuesKept_takeWithin s e

theorem courseOf_keepsQueues {tell : State → ErrorDetail → State} (h : ∀ s e, QueuesKept s (tell s e))
    (replaced : Nat → State → State) (w : Within) : CourseKeepsQueues (courseOf tell replaced w) where
  takeEnds s := queuesKept_settleBut s _
  tell := h
  afterSource s := queuesKept_foldl _ queuesKept_takeWithin _ s
  afterTriggers attempted s := queuesKept_foldl _ (queuesKept_takeLate attempted) _ s

/-! ## A soft reset before what an event sends has arrived (R147, R164, R179) -/

theorem queuesKept_softReset : QueuesKept s (softReset s) := by
  have tables := (queuesKept_mapLanes s fun _ x => x.softReset).trans (queuesKept_mapRules _ fun _ r => r.softReset)
  exact tables.trans (.of_le (.refl) (.refl) (Nat.zero_le _) (Nat.zero_le _))

theorem queuesKept_tellAmong (told : List ErrorDetail) (s : State) (e : ErrorDetail) :
    QueuesKept s (tellAmong told s e) := by
  unfold tellAmong
  split
  · exact queuesKept_report s e
  · exact .refl s

/-- What arrives late is offered again, whatever the event had sent. -/
theorem queuesKept_arrive (a : Arrived) (sent : ReturnSender) : QueuesKept s (arrive a sent s) := by
  have offered := (queuesKept_foldl _ (fun s (n : Notice) => queuesKept_offerNotice s n.kind n.payload)
    (sent.notices.drop a.notices) s).trans (queuesKept_foldl _ queuesKept_offerTap (sent.taps.drop a.taps) _)
  exact offered.trans (.of_le (.refl) (.refl) (.refl) (.refl))

theorem queuesKept_resetThenArrive (a : Arrived) (late : List ErrorDetail) :
    QueuesKept s (resetThenArrive a late s) :=
  (queuesKept_takeHead s .reset fun _ s => queuesKept_softReset s).trans <|
    (queuesKept_foldl _ queuesKept_takeReport _ _).trans <|
      (queuesKept_arrive _ a _).trans (queuesKept_foldl _ queuesKept_takeReport _ _)

/-- An event that keeps the queues within their places however its errors are told does so with a soft reset taken
before all of it has arrived. -/
theorem queuesKept_resetAmid (reset : Option Arrived) (run : (State → ErrorDetail → State) → State → TickEnd)
    (h : ∀ tell, (∀ s e, QueuesKept s (tell s e)) → ∀ s, QueuesKept s (run tell s).1) :
    QueuesKept s (resetAmid reset run s) := by
  have whole := h report queuesKept_report s
  have quiet : QueuesKept s { s with ret := s.ret.quiet } :=
    .of_le (.refl) (.refl) (Nat.zero_le _) (Nat.zero_le _)
  cases reset with
  | none => exact whole
  | some a =>
    simp only [resetAmid]
    split
    · exact quiet.trans <| (h _ (queuesKept_tellAmong _) _).trans <|
        (queuesKept_settle _).trans (queuesKept_resetThenArrive _ a _)
    · exact whole

/-! ## Ticks and marks, alone or among the replacements of a curve load (R14, R79, R151) -/

theorem queuesKept_checkJump (number : Word) : QueuesKept s (checkJump s number) := by
  unfold checkJump
  dsimp only
  split
  · exact .refl s
  · exact (queuesKept_link s _).trans (queuesKept_offerNotice _ _ _)

section Replaced

variable {replaced : Nat → State → State} (h : ∀ n s, QueuesKept s (replaced n s))

include h

theorem queuesKept_tickWith (w : Within) (l : LaneId) : QueuesKept s (tickWith replaced w s l) :=
  (h w.low s).trans <| (queuesKept_resetAmid _ w.reset _ fun _ tell _ =>
    queuesKept_laneTick (courseOf_keepsQueues tell replaced w) l).trans (h w.high _)

theorem queuesKept_takeMark (number : Word) (taker : MarkTaker) :
    QueuesKept s (takeMark (tickWith replaced) number s taker) := by
  cases taker with
  | ruleTable => exact queuesKept_ruleTableMark s number
  | lane l w =>
    have ticked (x : Lane) : QueuesKept s (tickWith replaced w (s.setLane l x) l) :=
      (queuesKept_setLane s l x).trans (queuesKept_tickWith _ h w l)
    simp only [takeMark, laneTakesMark]
    split
    · split
      · exact ticked _
      · exact .refl s
    · split
      · exact ticked _
      · exact queuesKept_setLane s l _
    · exact .refl s

theorem queuesKept_cycleMark (number : Word) (order : List MarkTaker) :
    QueuesKept s (cycleMark replaced number order s) :=
  (queuesKept_settle s).trans <| (queuesKept_checkJump _ number).trans <|
    (queuesKept_link _ _).trans (queuesKept_foldl _ (fun s => queuesKept_takeMark s h number) _ _)

theorem queuesKept_timedTick {s t : State} {tick : TickOf} (taken : timedTick replaced tick s = some t) :
    QueuesKept s t := by
  unfold timedTick at taken
  split at taken
  · cases taken
    exact (queuesKept_reach s _).trans <| (queuesKept_modLane _ tick.lane _).trans
      (queuesKept_tickWith _ h tick.within tick.lane)
  · cases taken
  · cases taken

theorem queuesKept_takeAmong (e : CurveEvent) : QueuesKept s (takeAmong replaced s e) := by
  cases e with
  | tick t =>
    simp only [takeAmong]
    cases taken : timedTick replaced t s with
    | none => exact .refl s
    | some u => exact queuesKept_timedTick h taken
  | mark number order => exact queuesKept_cycleMark s h number order

end Replaced

/-! ## Curve loads (R78) -/

theorem queuesKept_replacePoint (c : CurveId) (k : Nat) (v : Word) : QueuesKept s (replacePoint c k v s) := by
  unfold replacePoint
  split
  · exact .of_same rfl rfl
  · exact .refl s

theorem queuesKept_replacePoints (c : CurveId) (k : Nat) (values : List Word) (s : State) :
    QueuesKept s (replacePoints c k values s) := by
  induction values generalizing k s with
  | nil => exact .refl s
  | cons v rest ih => exact (queuesKept_replacePoint s c k v).trans (ih _ _)

theorem queuesKept_replaceAmong (among : List CurveEvent) (c : CurveId) (k : Nat) (values : List Word) :
    QueuesKept s (replaceAmong among c k values s) :=
  (queuesKept_foldl _ (fun s => queuesKept_takeAmong s fun n => queuesKept_replacePoints c k (values.take n))
    among s).trans (queuesKept_replacePoints c k values _)

end Sys2Proof.QueuePlaces
end

section
/-! PROOFS. O3: the places of the queues at every command of the Command Unit and every other row (R155, R158 to R160,
R165 to R174). -/

namespace Sys2Proof.QueuePlaces

open Sys2Proof.Machine

/-! ## The commands of records -/

section Commands

variable (p : Place) (s : State)

theorem queuesKept_linkLost (s : State) : QueuesKept s (linkLost s) :=
  (queuesKept_link s _).trans (queuesKept_offerNotice _ _ _)

theorem queuesKept_runSetReporting : QueuesKept s (runSetReporting p s).1 := by
  unfold runSetReporting
  split
  · exact .refl s
  · next lanes _ =>
    have settings (link : Link) (mask : BitVec 7) :
        QueuesKept s { s with link := link, ret := { s.ret with mask := mask, tapLanes := lanes } } :=
      .of_le .refl .refl .refl .refl
    dsimp only [applySilenceLimit]
    split
    · exact (settings _ _).trans (queuesKept_linkLost _)
    · exact settings _ _

theorem queuesKept_runConfigLane : QueuesKept s (runConfigLane p s).1 := by
  unfold runConfigLane
  (repeat' split) <;> exact .of_same rfl rfl

theorem queuesKept_runSetPlaylist : QueuesKept s (runSetPlaylist p s).1 := by
  unfold runSetPlaylist
  dsimp only
  (repeat' split) <;> exact .of_same rfl rfl

theorem queuesKept_addUse (blocks : List BlockId) : QueuesKept s (addUse s blocks) :=
  queuesKept_foldl _ (fun s b => queuesKept_setBlock s b _) blocks s

theorem queuesKept_primeLane (start : Word) (late : Bool) (s : State) (l : LaneId) :
    QueuesKept s (primeLane start late s l) :=
  (queuesKept_addUse s _).trans <| (queuesKept_modLane _ l _).trans (queuesKept_mapRules _ _)

theorem queuesKept_runStartLanes : QueuesKept s (runStartLanes p s).1 := by
  unfold runStartLanes
  split
  · exact .refl s
  · exact queuesKept_foldl _ (queuesKept_primeLane _ _) _ s

theorem queuesKept_stopLaneNow (s : State) (l : LaneId) : QueuesKept s (stopLaneNow s l) := by
  unfold stopLaneNow
  split
  · exact (queuesKept_laneOff s l).trans (queuesKept_modLane _ l _)
  · exact .refl s

theorem queuesKept_stopLaneDrain (s : State) (l : LaneId) : QueuesKept s (stopLaneDrain s l) := by
  unfold stopLaneDrain
  dsimp only
  split
  · split
    · exact queuesKept_setLane s l _
    · exact queuesKept_stopLaneNow s l
  · exact .refl s
  · exact queuesKept_stopLaneNow s l
  · exact .refl s
  · exact .refl s

theorem queuesKept_runStop {stop : State → LaneId → State} (h : ∀ s l, QueuesKept s (stop s l)) :
    QueuesKept s (runStop stop p s).1 := by
  unfold runStop
  split
  · exact .refl s
  · exact queuesKept_foldl _ h _ s

theorem queuesKept_runResetLane : QueuesKept s (runResetLane p s).1 := by
  unfold runResetLane
  split
  · exact .refl s
  · exact (queuesKept_laneOff s _).trans (queuesKept_modLane _ _ _)

theorem queuesKept_runReadLane : QueuesKept s (runReadLane p s).1 := by
  unfold runReadLane
  split <;> exact .refl s

theorem queuesKept_runLoadCurve (among : List CurveEvent) : QueuesKept s (runLoadCurve among p s).1 := by
  unfold runLoadCurve
  split
  · exact .refl s
  · split
    · exact queuesKept_replaceAmong s among _ _ _
    · exact .refl s

theorem queuesKept_fillNext : QueuesKept s (fillNext s) := by
  unfold fillNext
  split <;> exact .of_same rfl rfl

theorem queuesKept_defineBlock (b : BlockId) (base rows columns : Nat) :
    QueuesKept s (defineBlock s b base rows columns) := by
  have defined (d : Directory) :=
    (queuesKept_setBlock s b ⟨.filling, base, rows, columns, 0⟩).trans (queuesKept_dir _ d)
  unfold defineBlock
  dsimp only
  split
  · exact (defined _).trans (queuesKept_fillNext _)
  · exact defined _

/-- Every check of R35 refuses the record and changes nothing. -/
theorem queuesKept_runDefineBlock : QueuesKept s (runDefineBlock p s).1 := by
  unfold runDefineBlock
  dsimp only
  iterate 5 (split <;> [exact .refl s; skip])
  exact queuesKept_defineBlock s _ _ _ _

theorem queuesKept_runDeleteBlock : QueuesKept s (runDeleteBlock p s).1 := by
  unfold runDeleteBlock
  (repeat' split) <;> exact .of_same rfl rfl

theorem queuesKept_runReadDirectory : QueuesKept s (runReadDirectory p s).1 := by
  unfold runReadDirectory
  dsimp only
  (repeat' split) <;> exact .refl s

theorem queuesKept_writeThrough (w : Window) (data : List Word) (st : Status) :
    QueuesKept s (writeThrough s p w data st).1 := by
  unfold writeThrough
  dsimp only
  split <;> exact .of_same rfl rfl

theorem queuesKept_runWriteStart : QueuesKept s (runWriteStart p s).1 := by
  have refused (st : Status) : QueuesKept s (refuseStart s st).1 := .of_same rfl rfl
  unfold runWriteStart
  split
  · exact refused _
  · split
    · exact refused _
    · dsimp only
      split
      · exact refused _
      · exact refused _
      · split
        · exact refused _
        · split
          · exact refused _
          · exact queuesKept_writeThrough p s _ _ _

theorem queuesKept_runWriteContinue : QueuesKept s (runWriteContinue p s).1 := by
  unfold runWriteContinue
  split
  · exact .refl s
  · exact queuesKept_writeThrough p s _ _ _

theorem queuesKept_runReadTrace : QueuesKept s (runReadTrace p s).1 := by
  unfold runReadTrace
  dsimp only
  (repeat' split) <;> exact .of_same rfl rfl

theorem queuesKept_runLoadRule : QueuesKept s (runLoadRule p s).1 := by
  unfold runLoadRule
  (repeat' split) <;> exact .of_same rfl rfl

theorem queuesKept_runClearRule : QueuesKept s (runClearRule p s).1 := by
  unfold runClearRule
  (repeat' split) <;> exact .of_same rfl rfl

theorem queuesKept_armAll (chosen : RuleId → Bool) : QueuesKept s (armAll s chosen).1 := queuesKept_mapRules s _

theorem queuesKept_runArmRule : QueuesKept s (runArmRule p s).1 := by
  unfold runArmRule
  split
  · exact .refl s
  · split
    · exact .refl s
    · split
      · exact .refl s
      · exact queuesKept_armAll s _

theorem queuesKept_runArmGroup : QueuesKept s (runArmGroup p s).1 := by
  unfold runArmGroup
  split
  · exact queuesKept_armAll s _
  · exact .refl s

theorem queuesKept_runFire : QueuesKept s (runFire p s).1 := by
  unfold runFire
  split
  · exact queuesKept_mapRules s _
  · exact .refl s

theorem queuesKept_runReadRule : QueuesKept s (runReadRule p s).1 := by
  unfold runReadRule
  split <;> exact .refl s

end Commands

/-! ## How rows answer -/

section Rows

variable {s t : State}

/-- A row that has its effect when it is possible keeps what the effect keeps. -/
theorem queuesKept_whenPossible {possible : Bool} {m : String} {effect : State} (h : QueuesKept s effect)
    (row : whenPossible possible m effect = .next t) : QueuesKept s t := by
  obtain ⟨-, rfl⟩ := whenPossible_eq_next.1 row
  exact h

theorem queuesKept_fromOutside {wait : Nat} {effect : State → State} (h : ∀ s, QueuesKept s (effect s))
    (row : fromOutside s wait effect = .next t) : QueuesKept s t := by
  unfold fromOutside at row
  split at row <;> cases row
  · exact .refl s
  · exact (queuesKept_reach s (s.now + wait)).trans (h (s.pass wait))

theorem queuesKept_takeRecord {m : String} {mine : Place → Bool} {run : Place → State → State × Answer}
    (h : ∀ p s, QueuesKept s (run p s).1) (row : takeRecord m mine run s = .next t) : QueuesKept s t := by
  obtain ⟨p, rest, -, -, ⟨st, -, rfl⟩ | ⟨-, rfl⟩⟩ := takeRecord_next row
  · exact (queuesKept_settle s).trans (queuesKept_answer p (settle s, refusedWith st))
  · exact (queuesKept_settle s).trans <| (h p _).trans (queuesKept_answer p _)

/-- A command that answers from the state it finds. -/
theorem queuesKept_unchanged {m : String} {mine : Place → Bool} {reply : State → Answer}
    (row : takeRecord m mine (fun _ s => (s, reply s)) s = .next t) : QueuesKept s t :=
  queuesKept_takeRecord (fun _ s => .refl s) row

end Rows

/-! ## The words of the cycle link (R154 to R158) -/

section Words

variable (s : State)

theorem queuesKept_takeSampleWord (data : Word) : QueuesKept s (takeSampleWord s data) := by
  unfold takeSampleWord
  split <;> exact .of_same rfl rfl

/-- Records change in their places, and no place is taken or freed. -/
theorem queuesKept_onOpenRecord (f : Place → Place) (link : Link) :
    QueuesKept s { s with cmd := { s.cmd with queue := onOpenRecord f s.cmd.queue }, link := link } :=
  .of_le (by simp [onOpenRecord]) .refl .refl .refl

theorem queuesKept_endAssembly : QueuesKept s (endAssembly s) := by
  unfold endAssembly
  split
  · exact .refl s
  · exact queuesKept_onOpenRecord s _ _
  · exact queuesKept_link s _

/-- A header takes a free place of the command queue or is discarded (R155, R158). -/
theorem queuesKept_takeHeader (data : Word) : QueuesKept s (takeHeader s data) := by
  refine (queuesKept_endAssembly s).trans ?_
  unfold takeHeader
  dsimp only
  split
  · next room => exact fun ⟨_, replies, notices, taps⟩ => ⟨length_concat_le room, replies, notices, taps⟩
  · exact (queuesKept_link _ _).trans (queuesKept_offerNotice _ _ _)

theorem queuesKept_takePayload (data : Word) : QueuesKept s (takePayload s data) := by
  unfold takePayload
  split
  · exact queuesKept_link s _
  · dsimp only
    split <;> exact queuesKept_onOpenRecord s _ _
  · exact queuesKept_link s _

theorem queuesKept_takeBadWord : QueuesKept s (takeBadWord s) := by
  refine QueuesKept.trans ?_ (queuesKept_report _ _)
  dsimp only
  split
  · exact queuesKept_link s _
  · exact queuesKept_onOpenRecord s _ _
  · exact queuesKept_link s _

theorem queuesKept_corrupt (item : Corruption) : QueuesKept s (corrupt s item) := by
  cases item <;> exact .of_same rfl rfl

/-! ## The return direction (R160) -/

/-- What is sent next leaves its queue. -/
theorem queuesKept_sendNext : QueuesKept s (sendNext s) := by
  unfold sendNext
  split
  · next held => exact .of_le .refl (by simp [sendWord, held]) .refl .refl
  · next held => exact .of_le .refl .refl (by simp [sendWord, held]) .refl
  · next held => exact .of_le .refl .refl .refl (by simp [sendWord, held])
  · exact .of_le .refl .refl .refl .refl

theorem queuesKept_returnGoesOn : QueuesKept s (returnGoesOn s) := by
  unfold returnGoesOn
  split
  · exact .of_le .refl .refl .refl .refl
  · refine QueuesKept.trans ?_ (queuesKept_sendNext _)
    exact .of_le .refl .refl .refl .refl
  · exact queuesKept_sendNext s

end Words

/-! ## The other rows -/

section Events

variable {s t : State}

theorem queuesKept_returnWordSent (row : execReturnWordSent s = .next t) : QueuesKept s t := by
  refine (queuesKept_settle s).trans ?_
  unfold execReturnWordSent at row
  dsimp only at row
  split at row
  · cases row
    exact (queuesKept_reach _ _).trans (queuesKept_returnGoesOn _)
  · exact queuesKept_whenPossible (queuesKept_returnGoesOn _) row

theorem queuesKept_presenceChange {wait : Nat} {l : LaneId} {present : Bool}
    (row : execPresenceChange wait l present s = .next t) : QueuesKept s t := by
  cases row
  dsimp only
  split <;> exact .of_same rfl rfl

theorem queuesKept_timedTickRow {tick : TickOf} (row : execTimedTick tick s = .next t) : QueuesKept s t := by
  unfold execTimedTick at row
  split at row
  · next taken =>
    cases row
    exact queuesKept_timedTick (fun _ => .refl) taken
  · cases row

theorem queuesKept_portTransferComplete {l : LaneId} (row : execPortTransferComplete l s = .next t) :
    QueuesKept s t := by
  unfold execPortTransferComplete at row
  split at row <;> cases row
  exact (queuesKept_reach s _).trans (queuesKept_modLane _ l _)

theorem queuesKept_issueFetch (s : State) (l : LaneId) (e : PlaylistEntry) (words : List FetchWord) :
    QueuesKept s (issueFetch s l e words) := by
  unfold issueFetch
  split <;> exact .of_same rfl rfl

theorem queuesKept_fetchIssue {fetch : FetchOf} (row : execFetchIssue fetch s = .next t) : QueuesKept s t := by
  have failed (e : ErrorDetail) : QueuesKept (settle s) (playlistFails fetch (settle s) e) :=
    queuesKept_resetAmid _ fetch.reset _ fun _ tell s => tell s e
  refine (queuesKept_settle s).trans ?_
  unfold execFetchIssue at row
  dsimp only at row
  split at row
  · cases row
  · split at row
    · cases row
      exact failed _
    · split at row
      · exact queuesKept_whenPossible (queuesKept_issueFetch _ _ _ _) row
      · cases row
        exact failed _

theorem queuesKept_endActivationAmid (ending : EndOf) (s : State) :
    QueuesKept s (resetAmid ending.reset (fun _ s => (endActivation s ending.rule, [])) s) :=
  queuesKept_resetAmid s ending.reset _ fun _ _ s => queuesKept_endActivation s ending.rule

end Events

/-! ## The rows of the TMC (R29 to R32, R36, R41, R44, R56, R57) -/

section Accesses

variable {s t : State}

theorem queuesKept_completeAccess (s : State) (g : GroupId) (a : Access) :
    QueuesKept s (completeAccess s g a) := by
  unfold completeAccess
  split <;> exact .of_same rfl rfl

theorem queuesKept_tmcGrant (row : execTmcGrant s = .next t) : QueuesKept s t := by
  unfold execTmcGrant at row
  split at row <;> cases row
  exact .of_same rfl rfl

theorem queuesKept_groupBusyEnd {g : GroupId} (row : execGroupBusyEnd g s = .next t) : QueuesKept s t := by
  unfold execGroupBusyEnd at row
  split at row <;> cases row
  exact (queuesKept_reach s _).trans (queuesKept_setGroup _ g _)

theorem queuesKept_refreshDue {g : GroupId} (row : execRefreshDue g s = .next t) : QueuesKept s t :=
  queuesKept_whenPossible ((queuesKept_reach s _).trans (queuesKept_setGroup _ g _)) row

theorem queuesKept_refreshStart {g : GroupId} (row : execRefreshStart g s = .next t) : QueuesKept s t :=
  queuesKept_whenPossible (queuesKept_setGroup s g _) row

theorem queuesKept_refreshEnd {g : GroupId} (row : execRefreshEnd g s = .next t) : QueuesKept s t := by
  unfold execRefreshEnd at row
  split at row <;> cases row
  exact (queuesKept_reach s _).trans (queuesKept_setGroup _ g _)

theorem queuesKept_fetchComplete {l : LaneId} (row : execFetchComplete l s = .next t) : QueuesKept s t := by
  unfold execFetchComplete at row
  split at row
  · exact queuesKept_whenPossible ((queuesKept_completeAccess s _ _).trans (queuesKept_modLane _ l _)) row
  · cases row

theorem queuesKept_voidedFetchComplete {l : LaneId} (row : execVoidedFetchComplete l s = .next t) :
    QueuesKept s t := by
  unfold execVoidedFetchComplete at row
  split at row
  · exact queuesKept_whenPossible ((queuesKept_completeAccess s _ _).trans (queuesKept_modLane _ l _)) row
  · cases row

theorem queuesKept_blockReady (s : State) (b : BlockId) : QueuesKept s (blockReady s b) :=
  (queuesKept_setBlock s b _).trans <| (queuesKept_dir _ _).trans (queuesKept_offerNotice _ _ _)

theorem queuesKept_fillCompleted (s : State) : QueuesKept s (fillCompleted s) := by
  refine (queuesKept_dir s { s.dir with fillReq := .idle }).trans ?_
  unfold fillCompleted
  dsimp only
  split
  · exact queuesKept_fillNext _
  · split
    · exact .refl _
    · split
      · exact (queuesKept_dir _ _).trans <| (queuesKept_blockReady _ _).trans (queuesKept_fillNext _)
      · exact (queuesKept_dir _ _).trans (queuesKept_fillNext _)

theorem queuesKept_fillWriteComplete (row : execFillWriteComplete s = .next t) : QueuesKept s t := by
  unfold execFillWriteComplete at row
  split at row <;> cases row
  exact (queuesKept_settle s).trans <| (queuesKept_completeAccess _ _ _).trans (queuesKept_fillCompleted _)

theorem queuesKept_reportWritten (s : State) (written : List Nat) : QueuesKept s (reportWritten s written) := by
  unfold reportWritten
  split
  · exact queuesKept_mapLanes s _
  · exact .refl s

theorem queuesKept_issueRequest (s : State) (who : Requester) (addresses : List Nat) (data : Option (List Word))
    (closeAfter : Bool) : QueuesKept s (issueRequest s who addresses data closeAfter) := .of_same rfl rfl

theorem queuesKept_traceWriteComplete (row : execTraceWriteComplete s = .next t) : QueuesKept s t := by
  unfold execTraceWriteComplete at row
  split at row
  · next g a _ _ =>
    have written := (queuesKept_settle s).trans <|
      (queuesKept_completeAccess (settle s) g a).trans (queuesKept_reportWritten _ a.request.addresses)
    dsimp only at row
    split at row <;> cases row
    · exact written.trans (queuesKept_placeReply _ _)
    · exact written.trans <| (queuesKept_issueRequest _ _ _ _ _).trans (queuesKept_holdUnit _ _)
  · cases row

theorem queuesKept_traceReadComplete (row : execTraceReadComplete s = .next t) : QueuesKept s t := by
  unfold execTraceReadComplete at row
  split at row
  · next p _ g a _ _ _ =>
    have reported (bad : List Nat) := (queuesKept_settle s).trans <|
      (queuesKept_completeAccess (settle s) g a).trans <|
        queuesKept_foldl (fun s a => report s (.traceRead p.tag a)) (fun s _ => queuesKept_report s _) bad _
    dsimp only at row
    split at row <;> cases row
    · exact (reported _).trans (queuesKept_placeReply _ _)
    · exact (reported _).trans <| (queuesKept_issueRequest _ _ _ _ _).trans (queuesKept_holdUnit _ _)
  · cases row

theorem queuesKept_blockedReplyPlaced (row : execBlockedReplyPlaced s = .next t) : QueuesKept s t := by
  unfold execBlockedReplyPlaced at row
  split at row
  · exact queuesKept_whenPossible (queuesKept_placeReply s _) row
  · cases row
  · cases row

end Accesses

/-! ## Every command -/

theorem queuesKept_exec {c : Instr} {s t : State} (row : exec c s = .next t) : QueuesKept s t := by
  cases c with
  | hardReset powerOn =>
    cases row
    exact .of_le (Nat.zero_le _) (Nat.zero_le _) (Nat.zero_le _) (Nat.zero_le _)
  | resetNRisingEdge =>
    exact queuesKept_whenPossible (queuesKept_mapLanes { s with now := 0, resetLow := false } _) row
  | cycleMark wait number order =>
    exact queuesKept_fromOutside (fun s => queuesKept_cycleMark s (fun _ => .refl) number order) row
  | sample wait data => exact queuesKept_fromOutside (fun s => queuesKept_takeSampleWord s data) row
  | header wait data =>
    exact queuesKept_fromOutside (fun s => (queuesKept_settle s).trans (queuesKept_takeHeader _ data)) row
  | payload wait data => exact queuesKept_fromOutside (fun s => queuesKept_takePayload s data) row
  | linkWordBad wait =>
    exact queuesKept_fromOutside (fun s => (queuesKept_settle s).trans (queuesKept_takeBadWord _)) row
  | silenceTimerExpiry =>
    exact queuesKept_whenPossible
      ((queuesKept_settle s).trans <| (queuesKept_reach _ _).trans (queuesKept_linkLost _)) row
  | presenceChange wait l present => exact queuesKept_presenceChange row
  | storeCorruption wait item =>
    exact queuesKept_fromOutside (fun s => (queuesKept_settle s).trans (queuesKept_corrupt _ item)) row
  | timedTick tick => exact queuesKept_timedTickRow row
  | ruleDelayEnd r => exact queuesKept_whenPossible (queuesKept_modRule s r _) row
  | ruleDurationEnd ending => exact queuesKept_whenPossible (queuesKept_endActivationAmid ending s) row
  | portTransferComplete l => exact queuesKept_portTransferComplete row
  | fetchIssue fetch => exact queuesKept_fetchIssue row
  | tmcGrant => exact queuesKept_tmcGrant row
  | fetchComplete l => exact queuesKept_fetchComplete row
  | voidedFetchComplete l => exact queuesKept_voidedFetchComplete row
  | fillWriteComplete => exact queuesKept_fillWriteComplete row
  | traceWriteComplete => exact queuesKept_traceWriteComplete row
  | traceReadComplete => exact queuesKept_traceReadComplete row
  | groupBusyEnd g => exact queuesKept_groupBusyEnd row
  | refreshDue g => exact queuesKept_refreshDue row
  | refreshStart g => exact queuesKept_refreshStart row
  | refreshEnd g => exact queuesKept_refreshEnd row
  | returnWordSent => exact queuesKept_returnWordSent row
  | blockedReplyPlaced => exact queuesKept_blockedReplyPlaced row
  | identify => exact queuesKept_unchanged (reply := fun _ => .reply .done identifyWords) row
  | status => exact queuesKept_unchanged (reply := fun s => .reply .done (statusWords s)) row
  | reset =>
    exact queuesKept_takeRecord (run := fun _ s => (softReset s, .reply .done []))
      (fun _ s => queuesKept_softReset s) row
  | setReporting => exact queuesKept_takeRecord queuesKept_runSetReporting row
  | configLane => exact queuesKept_takeRecord queuesKept_runConfigLane row
  | setPlaylist => exact queuesKept_takeRecord queuesKept_runSetPlaylist row
  | startLanes => exact queuesKept_takeRecord queuesKept_runStartLanes row
  | stopLanesNow =>
    exact queuesKept_takeRecord
      (fun p s => queuesKept_ite_refused _ (queuesKept_runStop p s queuesKept_stopLaneNow)) row
  | stopLanesDrain =>
    exact queuesKept_takeRecord
      (fun p s => queuesKept_ite_refused _ (queuesKept_runStop p s queuesKept_stopLaneDrain)) row
  | resetLane => exact queuesKept_takeRecord queuesKept_runResetLane row
  | readLane => exact queuesKept_takeRecord queuesKept_runReadLane row
  | loadCurve among => exact queuesKept_takeRecord (fun p s => queuesKept_runLoadCurve p s among) row
  | defineBlock => exact queuesKept_takeRecord queuesKept_runDefineBlock row
  | deleteBlock => exact queuesKept_takeRecord queuesKept_runDeleteBlock row
  | readDirectory => exact queuesKept_takeRecord queuesKept_runReadDirectory row
  | writeTraceStart =>
    exact queuesKept_takeRecord (fun p s => queuesKept_ite_refused _ (queuesKept_runWriteStart p s)) row
  | writeTraceContinue =>
    exact queuesKept_takeRecord (fun p s => queuesKept_ite_refused _ (queuesKept_runWriteContinue p s)) row
  | readTrace => exact queuesKept_takeRecord queuesKept_runReadTrace row
  | loadRule => exact queuesKept_takeRecord queuesKept_runLoadRule row
  | clearRule => exact queuesKept_takeRecord queuesKept_runClearRule row
  | armRule => exact queuesKept_takeRecord (fun p s => queuesKept_ite_refused _ (queuesKept_runArmRule p s)) row
  | armGroup => exact queuesKept_takeRecord (fun p s => queuesKept_ite_refused _ (queuesKept_runArmGroup p s)) row
  | disarmRule =>
    exact queuesKept_takeRecord (fun p s => queuesKept_ite_refused _ (queuesKept_runDisarmRule s p)) row
  | disarmGroup =>
    exact queuesKept_takeRecord (fun p s => queuesKept_ite_refused _ (queuesKept_runDisarmGroup s p)) row
  | fire => exact queuesKept_takeRecord queuesKept_runFire row
  | readRule => exact queuesKept_takeRecord queuesKept_runReadRule row
  | readLatch => exact queuesKept_unchanged (reply := fun s => .reply .done (latchPayload s.latch)) row
  | clearLatch =>
    exact queuesKept_takeRecord (run := fun _ s => ({ s with latch := .reset }, .reply .done (latchPayload s.latch)))
      (fun _ s => queuesKept_latch s .reset) row
  | unknownCommandRecord => exact queuesKept_unchanged (reply := fun _ => refusedWith .unknownCommand) row

/-- Settles O3: a step idles or takes the front command, and every command keeps the queues within their places. -/
theorem queuesKeepWithinTheirPlaces : Obligations.QueuesKeepWithinTheirPlaces := by
  intro s t fit stepped
  unfold step at stepped
  split at stepped
  · cases stepped
    exact fit
  · exact queuesKept_exec stepped fit

end Sys2Proof.QueuePlaces
end

section
/-! PROOFS. The cycle link, inbound: a HEADER and the place it takes, a PAYLOAD word by the state of the assembler, and
the silence timer (R152, R153, R155 to R158). -/

namespace Sys2Proof.CycleLink

open Sys2Proof.Machine

/-! ## HEADER (R155, R157, R158) -/

/-- The command queue with the open record, if there is one, closed short (R157). -/
def closedShort (s : State) : List Place :=
  match s.link.assembler with
  | .opened _ => onOpenRecord Place.closeShort s.cmd.queue
  | _ => s.cmd.queue

theorem length_closedShort (s : State) : (closedShort s).length = s.cmd.queue.length := by
  unfold closedShort
  split
  · exact List.length_map _
  · rfl

theorem endAssembly_eq (s : State) : endAssembly s =
    { s with cmd := { s.cmd with queue := closedShort s }, link := { s.link with assembler := .idle } } := by
  obtain ⟨now, resetLow, ⟨state, cycle, limit, lastMark, assembler⟩⟩ := s
  cases assembler <;> rfl

/-- The number of payload words that a header announces. -/
def headerLength (data : Word) : Nat := data.toNat / 2 ^ 10 % 2 ^ 6

/-- The place that a header's record takes. -/
def headerPlace (data : Word) : Place where
  state := if headerLength data = 0 then .waiting else .assembling
  code := data.toNat / 2 ^ 24
  tag := data.toNat / 2 ^ 16 % 2 ^ 8
  length := headerLength data
  index := data.toNat % 2 ^ 10
  payload := []
  mark := .complete

theorem field_code (data : Word) : field data 24 8 = data.toNat / 2 ^ 24 := Playlist.field_top data rfl

theorem takeHeader_room {s : State} (data : Word) (room : s.cmd.queue.length < 8) : takeHeader s data = { s with
    cmd := { s.cmd with queue := closedShort s ++ [headerPlace data] }
    link := { s.link with
      assembler := if headerLength data = 0 then .idle else .opened (headerLength data) } } := by
  have takes : takeHeader s data = headerTakesPlace (endAssembly s) data :=
    if_pos (by rw [endAssembly_eq]; exact (length_closedShort s).trans_lt room)
  rw [takes, headerTakesPlace, field_code, Playlist.field_bottom, endAssembly_eq]
  rfl

theorem takeHeader_full {s : State} (data : Word) (full : 8 ≤ s.cmd.queue.length) : takeHeader s data = offerNotice
    { s with
      cmd := { s.cmd with queue := closedShort s }
      link := { s.link with
        overrun := countUp s.link.overrun
        assembler := if headerLength data = 0 then .idle else .skipping (headerLength data) } }
    .overrun
    [BitVec.ofNat 32 (data.toNat / 2 ^ 24 + data.toNat / 2 ^ 16 % 2 ^ 8 * 2 ^ 8),
      BitVec.ofNat 32 (countUp s.link.overrun)] := by
  have discarded : takeHeader s data = headerOverrun (endAssembly s) data :=
    if_neg (by rw [endAssembly_eq]; exact Nat.not_lt.2 (full.trans (length_closedShort s).ge))
  rw [discarded, headerOverrun, field_code, endAssembly_eq]
  simp only [packWord, List.foldr_cons, List.foldr_nil, Nat.pow_zero, Nat.mul_one, Nat.add_zero]
  rfl

theorem exec_header {s : State} (wait : Nat) (data : Word) (high : s.resetLow = false) :
    exec (.header wait data) s = .next (takeHeader (settle (s.pass wait)) data) :=
  fromOutside_high wait (fun u => takeHeader (settle u) data) high

/-- Settles O13: the ends taken first leave the link and the command queue, and `takeHeader` goes by the queue's
length. -/
theorem headerTakesAPlace : Obligations.HeaderTakesAPlace := by
  intro wait data s high u queue length code tag
  have settled : TickFrame (s.pass wait) u := tickFrame_settle _
  have link : u.link = s.link := settled.link
  have cmd : u.cmd = s.cmd := settled.cmd
  have closed : closedShort u = queue := by
    rw [closedShort, link, cmd]
    rfl
  rw [exec_header wait data high]
  refine ⟨fun room => ?room, fun full => ?full⟩
  case room =>
    rw [takeHeader_room data (cmd ▸ room), closed, link, cmd]
    rfl
  case full =>
    rw [takeHeader_full data (cmd ▸ full), closed, link, cmd]
    rfl

/-! ## PAYLOAD (R156) -/

section Payload

variable {s : State} (data : Word)

theorem takePayload_idle (idle : s.link.assembler = .idle) :
    takePayload s data = { s with link := { s.link with stray := countUp s.link.stray } } := by
  rw [takePayload, idle]

theorem takePayload_joins {n : Nat} (opened : s.link.assembler = .opened (n + 2)) : takePayload s data = { s with
    cmd := { s.cmd with queue := onOpenRecord (fun q => { q with payload := q.payload ++ [data] }) s.cmd.queue }
    link := { s.link with assembler := .opened (n + 1) } } := by
  rw [takePayload, opened]
  exact if_neg (by omega)

theorem takePayload_closes (opened : s.link.assembler = .opened 1) : takePayload s data = { s with
    cmd := { s.cmd with
      queue := onOpenRecord (fun q => { q with payload := q.payload ++ [data], state := .waiting }) s.cmd.queue }
    link := { s.link with assembler := .idle } } := by
  rw [takePayload, opened]
  rfl

theorem takePayload_skips {n : Nat} (skipping : s.link.assembler = .skipping (n + 1)) : takePayload s data = { s with
    link := { s.link with assembler := if n = 0 then .idle else .skipping n } } := by
  have last : n + 1 ≤ 1 ↔ n = 0 := by omega
  rw [takePayload, skipping]
  simp only [last, Nat.add_sub_cancel]

end Payload

theorem exec_payload {s : State} (wait : Nat) (data : Word) (high : s.resetLow = false) :
    exec (.payload wait data) s = .next (takePayload (s.pass wait) data) :=
  fromOutside_high wait (fun u => takePayload u data) high

/-- Settles O14: one case of `takePayload` for each state of the assembler. -/
theorem payloadByAssemblerState : Obligations.PayloadByAssemblerState := by
  intro wait data s high
  rw [exec_payload wait data high]
  exact ⟨fun idle => congrArg _ (takePayload_idle data idle),
    fun n opened => congrArg _ (takePayload_joins data opened),
    fun opened => congrArg _ (takePayload_closes data opened),
    fun n skipping => congrArg _ (takePayload_skips data skipping)⟩

/-! ## SILENCE_TIMER_EXPIRY (R152, R153) -/

theorem linkLost_eq (s : State) : linkLost s = offerNotice { s with link := { s.link with state := .lost } }
    .linkLost [s.link.currentCycle, BitVec.ofNat 32 s.link.silenceLimit] := rfl

theorem exec_silenceTimerExpiry_up {s : State} (up : s.link.state = .up) : exec .silenceTimerExpiry s =
    .next (linkLost ((settle s).reach (s.link.lastMark + s.link.silenceLimit * 1000))) :=
  whenPossible_of _ _ (decide_eq_true up)

theorem exec_silenceTimerExpiry_stopped {s : State} (stopped : s.link.state ≠ .up) :
    exec .silenceTimerExpiry s = .refused (.notPossible "SILENCE_TIMER_EXPIRY") :=
  if_neg (by simpa using stopped)

/-- Settles O16: the row is possible in UP alone, and the ends taken first leave the link and the time. -/
theorem silenceExpiryLosesTheLink : Obligations.SilenceExpiryLosesTheLink := by
  refine fun s => ⟨fun up => ?_, exec_silenceTimerExpiry_stopped⟩
  have link : (settle s).link = s.link := (tickFrame_settle s).link
  have now : (settle s).now = s.now := (tickFrame_settle s).now
  rw [exec_silenceTimerExpiry_up up, linkLost_eq, State.reach_link, link, ← now]
  rfl

end Sys2Proof.CycleLink
end

section
/-! PROOFS. SET_REPORTING: the tap list, the three settings and their reply, and a silence limit that has already been
reached (R153, R177, R178; log 16, log 36). -/

namespace Sys2Proof.Reporting

open Sys2Proof.Machine

/-! ## Lists with each member kept once -/

theorem nodup_eraseDups {α : Type} [DecidableEq α] (l : List α) : l.eraseDups.Nodup := by
  match l with
  | [] => exact List.nodup_nil
  | a :: rest =>
    rw [List.eraseDups_cons, List.nodup_cons]
    exact ⟨by simp, nodup_eraseDups _⟩
termination_by l.length
decreasing_by exact Nat.lt_succ_of_le (List.length_filter_le _ _)

/-- Keeping each member once takes something away exactly where a member stands twice. -/
theorem length_eraseDups_eq_iff {α : Type} [DecidableEq α] (l : List α) :
    l.eraseDups.length = l.length ↔ l.Nodup := by
  constructor
  · intro same
    have part : l.eraseDups.Subperm l := (nodup_eraseDups l).subperm fun _ => List.mem_eraseDups.1
    exact (part.perm_of_length_le same.ge).nodup_iff.1 (nodup_eraseDups l)
  · intro distinct
    exact ((List.perm_ext_iff_of_nodup (nodup_eraseDups l) distinct).2 fun _ => List.mem_eraseDups).length_eq

/-! ## The tap list (R177) -/

/-- How many lanes a tap list says that it names. -/
def tapCount (w : Word) : Nat := w.toNat / 2 ^ 20 % 8

theorem tapPlacesOf_eq (w : Word) : tapPlacesOf w =
    [w.toNat % 32, w.toNat / 2 ^ 5 % 32, w.toNat / 2 ^ 10 % 32, w.toNat / 2 ^ 15 % 32].take (tapCount w) := by
  rw [tapPlacesOf, Playlist.field_bottom]
  rfl

theorem tapLanesOf_none {w : Word} (bad : 4 < tapCount w ∨ ∃ n ∈ tapPlacesOf w, 23 < n) :
    tapLanesOf w = none := by
  unfold tapLanesOf
  split
  · next few =>
    obtain many | ⟨n, named, high⟩ := bad
    · exact absurd few (Nat.not_le.2 many)
    · refine if_neg fun all => ?_
      have isLane := List.all_eq_true.1 all _ (List.mem_map_of_mem named)
      rw [toFin?_none (bound := 24) high] at isLane
      exact absurd isLane (by decide)
  · rfl

theorem tapLanesOf_some {w : Word} {lanes : List LaneId} (few : tapCount w ≤ 4)
    (named : tapPlacesOf w = lanes.map Fin.val) : tapLanesOf w = some lanes.eraseDups := by
  have found : (tapPlacesOf w).map (fun n => toFin? n 24) = lanes.map some := by
    rw [named, List.map_map]
    exact List.map_congr_left fun l _ => toFin?_val l rfl
  rw [tapLanesOf, if_pos (show field w 20 3 ≤ 4 from few), found]
  simp

/-! ## SET_REPORTING -/

theorem mask_eq (w : Word) : BitVec.ofNat 7 (field w 0 7) = w.setWidth 7 := by
  apply BitVec.eq_of_toNat_eq
  rw [Playlist.field_bottom, BitVec.toNat_ofNat, BitVec.toNat_setWidth, Nat.mod_mod]

/-- The silence limit that a record's word gives (R177). -/
def limitOf (raw : Nat) : Nat := max 10 (min raw 65535)

section Applied

variable {u : State} {limit : Nat}

theorem applySilenceLimit_running (running : ¬(u.link.state = .up ∧ limit * 1000 ≤ u.now - u.link.lastMark)) :
    applySilenceLimit u limit = { u with link := { u.link with silenceLimit := limit } } := if_neg running

/-- A limit that the time since the latest mark has already reached expires the timer at once (R153). -/
theorem applySilenceLimit_reached (reached : u.link.state = .up ∧ limit * 1000 ≤ u.now - u.link.lastMark) :
    applySilenceLimit u limit = offerNotice
      { u with link := { u.link with silenceLimit := limit, state := .lost } } .linkLost
      [u.link.currentCycle, BitVec.ofNat 32 limit] := if_pos reached

end Applied

/-- The part with a new mask and a new tap lane set. -/
def withReports (u : State) (mask : BitVec 7) (lanes : List LaneId) : State :=
  { u with ret := { u.ret with mask := mask, tapLanes := lanes } }

theorem runSetReporting_refused {p : Place} (u : State) (bad : tapLanesOf (p.payload.getD 2 0) = none) :
    runSetReporting p u = (u, refusedWith .badValue) := by
  have bad : tapLanesOf (param p.payload 2) = none := bad
  simp only [runSetReporting, bad]

/-- The reply is ADJUSTED where the limit was clamped or a lane was named twice (R177). -/
theorem status_eq (raw limit : Nat) (lanes : List LaneId) :
    (if (raw != limit || lanes.eraseDups.length != lanes.length) = true then Status.adjusted else .done) =
      if raw = limit ∧ lanes.Nodup then .done else .adjusted := by
  have changed : (raw != limit || lanes.eraseDups.length != lanes.length) = true ↔
      ¬(raw = limit ∧ lanes.Nodup) := by
    rw [← length_eraseDups_eq_iff, Bool.or_eq_true, bne_iff_ne, bne_iff_ne, Decidable.not_and_iff_or_not]
  simp only [changed, ite_not]

theorem runSetReporting_taken {p : Place} {lanes : List LaneId} (u : State)
    (few : tapCount (p.payload.getD 2 0) ≤ 4) (named : tapPlacesOf (p.payload.getD 2 0) = lanes.map Fin.val) :
    let raw := (p.payload.getD 0 0).toNat
    let mask : BitVec 7 := (p.payload.getD 1 0).setWidth 7
    runSetReporting p u =
      (applySilenceLimit (withReports u mask lanes.eraseDups) (limitOf raw),
        .reply (if raw = limitOf raw ∧ lanes.Nodup then .done else .adjusted)
          [BitVec.ofNat 32 (limitOf raw), BitVec.ofNat 32 mask.toNat, tapListWord lanes.eraseDups]) := by
  intro raw mask
  have kept : tapLanesOf (param p.payload 2) = some lanes.eraseDups := tapLanesOf_some few named
  have same : mask = BitVec.ofNat 7 (field (param p.payload 1) 0 7) := (mask_eq _).symm
  simp only [runSetReporting, kept, ← same]
  rw [show tapPlacesOf (param p.payload 2) = lanes.map Fin.val from named, List.length_map]
  exact congrArg (fun st => (_, Answer.reply st _)) (status_eq raw (limitOf raw) lanes)

theorem exec_setReporting {s v : State} {p : Place} {rest : List Place} {st : Status} {w : List Word}
    (headed : Headed s p rest) (carried : CarriedOut .setReporting p)
    (run : runSetReporting p (settle s) = (v, .reply st w)) (cmd : v.cmd = (settle s).cmd) :
    exec .setReporting s = .next (replied v p rest ⟨st, p.tag, p.code, w⟩) :=
  takeRecord_reply headed carried (isCommand_carriedOut carried) run (congrArg _ cmd)

/-- Settles O40: the tap list decides between the refusal and the replacement; the ends taken first leave the link and
the time by which the new limit is judged. -/
theorem reportingIsReplaced : Obligations.ReportingIsReplaced := by
  intro s p rest headed carried u raw mask list count named limit
  have places : tapPlacesOf (p.payload.getD 2 0) = named := tapPlacesOf_eq _
  have link : u.link = s.link := (tickFrame_settle s).link
  have now : u.now = s.now := (tickFrame_settle s).now
  refine ⟨fun bad => ?refused, fun lanes few names => ?taken⟩
  case refused =>
    exact exec_setReporting headed carried (runSetReporting_refused u (tapLanesOf_none (places ▸ bad))) rfl
  case taken =>
    intro kept v reply
    have run := runSetReporting_taken (p := p) u few (places.trans names)
    rw [← link, ← now]
    refine ⟨fun running => ?_, fun reached => ?_⟩
    · exact exec_setReporting headed carried
        (run.trans (congrArg (·, _) (applySilenceLimit_running (u := withReports u mask kept) running))) rfl
    · exact exec_setReporting headed carried
        (run.trans (congrArg (·, _) (applySilenceLimit_reached (u := withReports u mask kept) reached)))
        (tickFrame_offerNotice _ _ _).cmd

end Sys2Proof.Reporting
end

section
/-! PROOFS. The Command Unit: the checks that every record meets first, a blocked reply, IDENTIFY and STATUS (R167,
R168, R171, R174 to R176; logs 3, 4, 16, 45). -/

namespace Sys2Proof.Management

open Sys2Proof.Machine

/-! ## The checks of mark, code and length (R167) -/

section Judged

variable {p : Place}

theorem judge_corrupt (mark : p.mark = .corrupt) : judge p = some .corrupt := by
  rw [judge, mark]

theorem judge_truncated (mark : p.mark = .truncated) : judge p = some .truncated := by
  rw [judge, mark]

theorem judge_unknownCommand (mark : p.mark = .complete) (code : commandOf p.code = none) :
    judge p = some .unknownCommand := by
  simp only [judge, mark, code]

theorem judge_badLength {c : Command} (mark : p.mark = .complete) (code : commandOf p.code = some c)
    (length : ¬(c.lengths.1 ≤ p.payload.length ∧ p.payload.length ≤ c.lengths.2)) :
    judge p = some .badLength := by
  simp only [judge, mark, code, if_neg length]

end Judged

/-! ## Refused records (R167, R171; log 4) -/

section Refused

variable {s : State} {p : Place} {rest : List Place} {c : Command} {st : Status}

theorem isCommand_of_code (code : commandOf p.code = some c) : isCommand c p = true := decide_eq_true code

/-- A row of one form or mode of a command takes each record of the command that R167 refuses, whatever form the record
names (log 4). -/
theorem takes_of_judge (other : Bool) (code : commandOf p.code = some c) (refused : judge p = some st) :
    (isCommand c p && ((judge p).isSome || other)) = true := by
  rw [isCommand_of_code code, refused]
  rfl

/-- Each row of a command answers a record of the command that R167 refuses with that refusal. -/
theorem exec_refused {row : Instr} (carries : managementRow row = some c) (headed : Headed s p rest)
    (code : commandOf p.code = some c) (refused : judge p = some st) :
    exec row s = .next (replied (settle s) p rest ⟨st, p.tag, p.code, []⟩) := by
  cases row with
  | stopLanesNow | stopLanesDrain | writeTraceStart | writeTraceContinue | armRule | armGroup | disarmRule
  | disarmGroup =>
    cases carries
    dsimp only [exec]
    exact takeRecord_refused headed refused (takes_of_judge _ code refused)
  | identify | status | reset | setReporting | configLane | setPlaylist | startLanes | resetLane | readLane
  | loadCurve among | defineBlock | deleteBlock | readDirectory | readTrace | loadRule | clearRule | fire | readRule
  | readLatch | clearLatch =>
    cases carries
    dsimp only [exec]
    exact takeRecord_refused headed refused (isCommand_of_code code)
  | _ => cases carries

theorem exec_unknownCommandRecord (headed : Headed s p rest) (code : commandOf p.code = none)
    (refused : judge p = some st) :
    exec .unknownCommandRecord s = .next (replied (settle s) p rest ⟨st, p.tag, p.code, []⟩) := by
  change execUnknownCommandRecord s = _
  exact takeRecord_refused headed refused (decide_eq_true code)

end Refused

/-- Settles O35: the first check that fails is the record's refusal, with which every row of its command answers. -/
theorem refusedRecordsChangeNothing : Obligations.RefusedRecordsChangeNothing := by
  intro s p rest headed refused
  refine ⟨fun row c carries code => ?known, fun code => ?unknown⟩
  case known =>
    exact ⟨fun mark => exec_refused carries headed code (judge_corrupt mark),
      fun mark => exec_refused carries headed code (judge_truncated mark),
      fun mark length => exec_refused carries headed code (judge_badLength mark code length)⟩
  case unknown =>
    exact ⟨fun mark => exec_unknownCommandRecord headed code (judge_corrupt mark),
      fun mark => exec_unknownCommandRecord headed code (judge_truncated mark),
      fun mark => exec_unknownCommandRecord headed code (judge_unknownCommand mark code)⟩

/-! ## A blocked reply (R174) -/

theorem whenPossible_of_not {b : Bool} (m : String) (e : State) (h : b = false) :
    whenPossible b m e = .refused (.notPossible m) := by
  rw [h]
  rfl

theorem exec_blockedReplyPlaced {s : State} {r : Reply} (unit : s.cmd.unit = .blocked r) :
    exec .blockedReplyPlaced s = whenPossible (decide (s.ret.replies.length < 16)) "BLOCKED_REPLY_PLACED"
      (placeReply s r) := by
  change execBlockedReplyPlaced s = _
  rw [execBlockedReplyPlaced, unit]
  rfl

theorem replied_of_room {s : State} (p : Place) (rest : List Place) (r : Reply)
    (room : s.ret.replies.length < 16) :
    replied s p rest r = { s with
      ret := { s.ret with replies := s.ret.replies ++ [r] }
      cmd := { s.cmd with queue := rest, unit := .ready } } := if_pos room

/-- Settles O34: the row is possible exactly with a place free, and then the reply is placed as any other is. -/
theorem blockedReplyIsPlaced : Obligations.BlockedReplyIsPlaced := by
  intro s r p rest unit queue
  rw [exec_blockedReplyPlaced unit]
  refine ⟨fun room => ?placed, fun full => ?refused⟩
  case placed =>
    rw [whenPossible_of _ _ (decide_eq_true room), TraceMemory.placeReply_eq_replied r queue,
      replied_of_room p rest r room]
  case refused => exact whenPossible_of_not _ _ (decide_eq_false (Nat.not_lt.2 full))

/-! ## IDENTIFY, STATUS (R175, R176) -/

/-- Settles O36: the row answers from constants and leaves the state that it finds. -/
theorem identifyReturnsSevenWords : Obligations.IdentifyReturnsSevenWords := by
  intro s p rest headed carried
  change execIdentify s = _
  exact takeRecord_reply headed carried (isCommand_carriedOut carried) rfl rfl

theorem exec_status {s : State} {p : Place} {rest : List Place} (headed : Headed s p rest)
    (carried : CarriedOut .status p) :
    exec .status s = .next (replied (settle s) p rest ⟨.done, p.tag, p.code, statusWords (settle s)⟩) := by
  change execStatus s = _
  exact takeRecord_reply headed carried (isCommand_carriedOut carried) rfl rfl

/-- Settles O37: the row answers with `statusWords`, whose codes of states and of the window are those of the table. -/
theorem statusReturnsThePart : Obligations.StatusReturnsThePart := by
  intro s p rest headed carried u n link latch lane
  have link_eq : link = numberWord (linkStateCode u.link.state) := by
    unfold link
    cases u.link.state <;> rfl
  have latch_eq : latch = numberWord (latchStateCode u.latch.state) := by
    unfold latch
    cases u.latch.state <;> rfl
  have lane_eq : lane = fun l => numberWord (laneStateCode (u.lane l).state) := by
    funext l
    unfold lane
    cases (u.lane l).state <;> rfl
  have window_eq : (if u.cmd.window.isSome then (1 : Word) else 0) = numberWord (flagBit u.cmd.window.isSome) := by
    cases u.cmd.window.isSome <;> rfl
  rw [exec_status headed carried, link_eq, latch_eq, lane_eq, window_eq]
  rfl

end Sys2Proof.Management
end

section
/-! PROOFS. The step and the queue of commands (log 1). -/

namespace Sys2Proof.Stepping

open Sys2Proof.Machine

variable {s : State}

theorem step_of_pending_cons {c : Instr} {rest : List Instr} (front : s.pending = c :: rest) :
    step s = exec c { s with pending := rest } := by
  rw [step, front]

theorem step_of_pending_nil (idle : s.pending = []) : step s = .next s := by
  rw [step, idle]

/-- Settles O1: the two clauses are the two shapes of the queue of commands. -/
theorem stepTakesFrontCommand : Obligations.StepTakesFrontCommand := fun _ =>
  ⟨fun _ _ front => step_of_pending_cons front, fun idle => step_of_pending_nil idle⟩

end Sys2Proof.Stepping
end

section
/-! PROOFS. What ticks, marks, halts, reports and ends of rules can make of a lane: a chain of moves, each one of those
that `LaneMove` lists (R16, R23, R49, R62, R104). -/

namespace Sys2Proof.LaneMoves

open Sys2Proof.Machine Sys2Proof.FaultRules

/-! ## The moves of a lane -/

/-- One move of a lane. Where `anew` holds, the count of a tick and a soft reset are among the moves. -/
inductive LaneMove (anew : Prop) : Lane → Lane → Prop where
  | cut {x : Lane} {chain : List RuleId} (fewer : chain.Sublist x.chain) : LaneMove anew x { x with chain := chain }
  | joined {x : Lane} (priority : RuleId → Nat) (i : RuleId) (room : x.chain.length < 8) :
      LaneMove anew x { x with chain := chainInsert priority i x.chain }
  | released (x : Lane) : LaneMove anew x { x.releaseReplay with counted := [] }
  | off (x : Lane) : LaneMove anew x { x with state := .off, pacing := .stopped }
  | halted {x : Lane} (inPlay : x.state.inPlay = true) :
      LaneMove anew x
        { x with state := .halted, pacing := if x.config.fallback = .live then x.pacing else .stopped }
  | handed (x : Lane) (now : Nat) (w : PortWord) : LaneMove anew x (x.handed now w)
  | consumed (x : Lane) : LaneMove anew x x.consumeLive
  | underrun (x : Lane) : LaneMove anew x x.underrun
  | played {x : Lane} {q : QueueWord} {rest : List QueueWord} (queued : x.payDebt.queue = q :: rest) :
      LaneMove anew x { x.payDebt with queue := rest }
  | sensed (x : Lane) (e : Int) : LaneMove anew x { x with prev := some e }
  | drawn (x : Lane) (gate : BitVec 16) : LaneMove anew x { x with gate := gate }
  | saturated (x : Lane) (clamped : Bool) : LaneMove anew x (x.countSaturation clamped)
  | pushed (x : Lane) (w : OutCode) : LaneMove anew x { x with history := pushHistory x.history w }
  | lost (x : Lane) :
      LaneMove anew x { x with counters := { x.counters with lostTicks := countUp x.counters.lostTicks } }
  | counted (allowed : anew) (x : Lane) : LaneMove anew x x.countTickTaken
  | reset (allowed : anew) (x : Lane) : LaneMove anew x x.softReset

/-- A chain of moves. -/
abbrev Moves (anew : Prop) : Lane → Lane → Prop := Relation.ReflTransGen (LaneMove anew)

/-- Every lane has moved, and the fill queue stands as it did. -/
structure TickMoves (anew : Prop) (s t : State) : Prop where
  lane : ∀ l, Moves anew (s.lane l) (t.lane l)
  fillQueue : t.dir.fillQueue = s.dir.fillQueue

variable {anew : Prop}

theorem TickMoves.refl (s : State) : TickMoves anew s s := ⟨fun _ => .refl, rfl⟩

theorem TickMoves.trans {s t u : State} (a : TickMoves anew s t) (b : TickMoves anew t u) : TickMoves anew s u :=
  ⟨fun l => (a.lane l).trans (b.lane l), b.fillQueue.trans a.fillQueue⟩

theorem moves_foldl {α : Type} (f : State → α → State) (h : ∀ s a, TickMoves anew s (f s a)) (l : List α)
    (s : State) : TickMoves anew s (l.foldl f s) := by
  induction l generalizing s with
  | nil => exact .refl s
  | cons a rest ih => exact (h s a).trans (ih _)

/-- What leaves lanes and directory as they are moves nothing. -/
theorem TickMoves.of_same {s t : State} (lanes : t.lanes = s.lanes) (dir : t.dir = s.dir) : TickMoves anew s t :=
  ⟨fun l => by rw [State.lane, State.lane, lanes], by rw [dir]⟩

/-- A chain of moves of one lane. -/
theorem TickMoves.of_setLane {s : State} {l : LaneId} {x : Lane} (move : Moves anew (s.lane l) x) :
    TickMoves anew s (s.setLane l x) where
  lane k := by
    rw [State.lane_setLane]
    split
    · next same => exact same ▸ move
    · exact .refl
  fillQueue := rfl

/-- One move of one lane. -/
theorem TickMoves.of_modLane (s : State) (l : LaneId) {f : Lane → Lane}
    (move : LaneMove anew (s.lane l) (f (s.lane l))) : TickMoves anew s (s.modLane l f) :=
  .of_setLane (.single move)

theorem moves_released (s : State) (l : LaneId) :
    TickMoves anew s (s.modLane l fun x => { x.releaseReplay with counted := [] }) := .of_modLane s l (.released _)

theorem moves_pushed (s : State) (l : LaneId) (w : OutCode) :
    TickMoves anew s (s.modLane l fun x => { x with history := pushHistory x.history w }) :=
  .of_modLane s l (.pushed _ w)

theorem TickMoves.of_mapLanes {s : State} {f : LaneId → Lane → Lane} (move : ∀ l x, Moves anew x (f l x)) :
    TickMoves anew s (s.mapLanes f) where
  lane l := by rw [State.lane_mapLanes]; exact move l _
  fillQueue := by rw [State.mapLanes_dir]

variable (s : State)

theorem moves_mapRules (f : RuleId → Rule → Rule) : TickMoves anew s (s.mapRules f) :=
  .of_same (State.mapRules_lanes s f) (State.mapRules_dir s f)

theorem moves_setRule (i : RuleId) (x : Rule) : TickMoves anew s (s.setRule i x) := .of_same rfl rfl

theorem moves_modRule (i : RuleId) (f : Rule → Rule) : TickMoves anew s (s.modRule i f) := .of_same rfl rfl

theorem moves_setBlock (b : BlockId) (x : Block) : TickMoves anew s (s.setBlock b x) := ⟨fun _ => .refl, rfl⟩

theorem moves_offerNotice (kind : NoticeKind) (words : List Word) : TickMoves anew s (offerNotice s kind words) :=
  .of_same (offerNotice_lanes s kind words) (offerNotice_dir s kind words)

theorem moves_offerTap (word : Word) : TickMoves anew s (offerTap s word) := by
  unfold offerTap
  split <;> exact .of_same rfl rfl

theorem moves_handOver (l : LaneId) (h : HandOver) : TickMoves anew s (handOver s l h) := by
  have handed : TickMoves anew s (s.modLane l fun x => x.handed s.now h.word) := .of_modLane s l (.handed _ _ _)
  unfold handOver
  dsimp only
  split
  · exact handed.trans (moves_offerTap _ _)
  · exact handed

theorem moves_offerRuleEvent (i : RuleId) (event : RuleEvent) : TickMoves anew s (offerRuleEvent s i event) := by
  unfold offerRuleEvent
  dsimp only
  split
  · exact moves_offerNotice s _ _
  · exact .refl s

/-! ## Ends of delays and durations, lanes that leave play, reports -/

theorem moves_leaveChains (i : RuleId) : TickMoves anew s (leaveChains s i) where
  lane l := by rw [lane_leaveChains]; exact .single (.cut List.erase_sublist)
  fillQueue := by rw [leaveChains_dir]

theorem moves_endActivation (i : RuleId) : TickMoves anew s (endActivation s i) :=
  (moves_leaveChains s i).trans <| (moves_modRule _ i _).trans <|
    (moves_offerRuleEvent _ i _).trans <| (moves_mapRules _ _).trans (moves_modRule _ i _)

theorem moves_settleBut (held : List RuleId) : TickMoves anew s (settleBut held s) := by
  unfold settleBut
  split
  · exact (moves_mapRules s _).trans (moves_foldl _ moves_endActivation _ _)
  · exact .refl s

theorem moves_settle : TickMoves anew s (settle s) := settleBut_nil ▸ moves_settleBut s []

theorem moves_ruleTableMark (number : Word) : TickMoves anew s (ruleTableMark s number) :=
  (moves_settle s).trans (moves_mapRules _ _)

theorem moves_returnRules (l : LaneId) : TickMoves anew s (returnRules s l) := by
  refine TickMoves.trans (.of_mapLanes fun k x => .single (.cut ?_)) (moves_mapRules _ _)
  split
  · exact List.nil_sublist _
  · exact List.filter_sublist

theorem moves_dropUse (blocks : List BlockId) : TickMoves anew s (dropUse s blocks) :=
  moves_foldl _ (fun s b => moves_setBlock s b _) blocks s

theorem moves_releaseLane (l : LaneId) : TickMoves anew s (releaseLane s l) :=
  (moves_returnRules s l).trans <| (moves_dropUse _ _).trans (moves_released _ l)

theorem moves_laneOff (l : LaneId) : TickMoves anew s (laneOff s l) :=
  (moves_releaseLane s l).trans (.of_modLane _ l (.off _))

theorem lane_dropUse (blocks : List BlockId) (l : LaneId) : (dropUse s blocks).lane l = s.lane l := by
  unfold dropUse
  induction blocks generalizing s with
  | nil => rfl
  | cons b rest ih => rw [List.foldl_cons, ih, State.lane_setBlock]

/-- A lane that gives up its rules and its replay state is in the lane state it was in. -/
theorem releaseLane_state (l : LaneId) : ((releaseLane s l).lane l).state = (s.lane l).state := by
  simp [releaseLane, lane_dropUse, returnRules, Lane.releaseReplay, Lane.voidFetch]

theorem moves_haltLane (l : LaneId) : TickMoves anew s (haltLane s l) := by
  unfold haltLane
  split
  · next inPlay =>
    have halts : LaneMove anew ((releaseLane s l).lane l) _ := .halted (by rw [releaseLane_state]; exact inPlay)
    exact (moves_releaseLane s l).trans <| (TickMoves.of_modLane _ l halts).trans <|
      (moves_offerNotice _ _ _).trans (moves_handOver _ l _)
  · exact .refl s

theorem moves_latch (k : Latch) : TickMoves anew s { s with latch := k } := .of_same rfl rfl

theorem moves_latchTakes (d : Descriptor) : TickMoves anew s (latchTakes s d) := by
  have holds (n : Nat) : TickMoves anew s (holdDescriptor s d n) := (moves_latch s _).trans (moves_offerNotice _ _ _)
  unfold latchTakes
  split
  · exact holds _
  · split
    · split
      · exact moves_latch s _
      · exact holds _
    · exact moves_latch s _
  · split <;> exact moves_latch s _

theorem moves_takeReport (d : Descriptor) : TickMoves anew s (takeReport s d) := by
  refine (moves_latchTakes s d).trans ?_
  unfold takeReport
  dsimp only
  split
  · exact moves_foldl _ moves_haltLane _ _
  · split
    · exact moves_haltLane _ _
    · exact .refl _

theorem moves_report (e : ErrorDetail) : TickMoves anew s (report s e) := moves_takeReport s _

/-! ## Steps of a tick -/

theorem moves_countApplied (rules : List RuleId) : TickMoves anew s (countApplied s rules) :=
  moves_foldl _ (fun s i => moves_modRule s i _) rules s

theorem moves_sourceStage (l : LaneId) : TickMoves anew s (sourceStage s l).1 := by
  unfold sourceStage
  dsimp only
  split
  · exact moves_countApplied s _
  · split
    · exact .of_setLane (.single (.consumed _))
    · exact .refl s
    · split
      · exact .of_setLane (.single (.underrun _))
      · next queued => exact .of_setLane (.single (.played queued))

theorem attemptSucceeds_room {l : LaneId} {i : RuleId} (h : attemptSucceeds s l i = true) :
    (s.lane l).chain.length < 8 := (attemptSucceeds_iff.1 h).1

theorem moves_activate {l : LaneId} {i : RuleId} (room : (s.lane l).chain.length < 8) :
    TickMoves anew s (activate s l i).1 :=
  (TickMoves.of_modLane s l (.joined _ i room)).trans <| (moves_modRule _ i _).trans <|
    (moves_offerRuleEvent _ i _).trans (moves_mapRules _ _)

theorem moves_missAttempt (i : RuleId) : TickMoves anew s (missAttempt s i) :=
  (moves_modRule s i _).trans <| (moves_offerRuleEvent _ i _).trans (moves_modRule _ i _)

theorem moves_vacate (i : RuleId) : TickMoves anew s (vacate s i) :=
  (moves_leaveChains s i).trans (moves_setRule _ i _)

theorem moves_runAttempts (l : LaneId) (fuel : Nat) (todo done : List RuleId) (s : State) :
    TickMoves anew s (runAttempts l fuel todo done s).state := by
  induction fuel generalizing todo done s with
  | zero => exact .refl s
  | succ fuel ih =>
    cases todo with
    | nil => exact .refl s
    | cons i todo =>
      simp only [runAttempts]
      split
      · split
        · next succeeds => exact (moves_activate s (attemptSucceeds_room s succeeds)).trans (ih _ _ _)
        · exact (moves_missAttempt s i).trans (ih _ _ _)
      · exact moves_vacate s i

theorem moves_step2 (l : LaneId) (p : Presented) : TickMoves anew s (step2 s l p).state := by
  cases p with
  | underrun => exact .refl s
  | frozen _ => exact (moves_mapRules s _).trans (moves_runAttempts l _ _ _ _)
  | code e mark =>
    exact (moves_mapRules s _).trans <| (TickMoves.of_modLane _ l (.sensed _ e)).trans <|
      (moves_mapRules _ _).trans (moves_runAttempts l _ _ _ _)

theorem moves_step3 (l : LaneId) : TickMoves anew s (step3 s l).state := by
  unfold step3
  dsimp only
  split
  · exact moves_vacate s _
  · exact (TickMoves.of_modLane s l (.drawn _ _)).trans (moves_mapRules _ _)

theorem moves_valueStage (rules : List RuleId) (s : State) (e : Int) (clamped : Bool) :
    TickMoves anew s (valueStage rules s e clamped).1 := by
  induction rules generalizing s e clamped with
  | nil => exact .refl s
  | cons i rest ih => exact (moves_setRule s i _).trans (ih _ _ _)

theorem moves_step4 (upper : State → State) (l : LaneId) (gates : List (RuleId × Bool)) (e : Int) :
    TickMoves anew s (step4 upper s l gates e).state := by
  have valued (clamped : Bool) := (moves_valueStage (anew := anew) (applying s gates .value) s e false).trans
    (TickMoves.of_modLane _ l (.saturated _ clamped))
  unfold step4
  dsimp only
  split
  · exact (valued _).trans (moves_settle _)
  · exact (valued _).trans <| (moves_countApplied _ _).trans (moves_pushed _ l _)

theorem moves_timeStage (l : LaneId) (gates : List (RuleId × Bool)) (p : Path) :
    TickMoves anew s (timeStage s l gates p).1 := by
  unfold timeStage
  dsimp only
  split
  · exact .refl s
  · exact moves_countApplied s _

theorem moves_finishTick (l : LaneId) (gates : List (RuleId × Bool)) (c : Chosen) :
    TickMoves anew s (finishTick s l gates c) :=
  (moves_countApplied s _).trans (moves_handOver _ l _)

theorem moves_endOfPlay (l : LaneId) (played : Option FetchWord) : TickMoves anew s (endOfPlay s l played) := by
  have off (reason : EndReason) : TickMoves anew s (offerLaneEnded (laneOff (settle s) l) l reason) :=
    (moves_settle s).trans <| (moves_laneOff _ l).trans (moves_offerNotice _ _ _)
  unfold endOfPlay
  split
  · exact .refl s
  · dsimp only
    split
    · exact off _
    · split
      · exact off _
      · exact .refl s

theorem moves_lastSteps (c : Course) (l : LaneId) (source : Sourced) (gates : List (RuleId × Bool)) :
    TickMoves anew s (lastSteps c s l source gates).state := by
  unfold lastSteps
  split
  · exact (moves_countApplied s _).trans (moves_finishTick _ l _ _)
  · exact moves_finishTick s l _ _
  · next e _ _ =>
    have converted := moves_step4 (anew := anew) s c.upper l gates e
    split
    · next k => rw [k] at converted; exact converted
    · next k =>
      rw [k] at converted
      exact converted.trans <| (moves_timeStage _ l gates _).trans <|
        (moves_finishTick _ l _ _).trans (moves_endOfPlay _ l _)

/-! ## Whole ticks, on any course -/

/-- All that a course brings into a tick is a chain of moves. -/
structure CourseMoves (anew : Prop) (c : Course) : Prop where
  takeEnds : ∀ s, TickMoves anew s (c.takeEnds s)
  tell : ∀ s e, TickMoves anew s (c.tell s e)
  afterSource : ∀ s, TickMoves anew s (c.afterSource s)
  afterTriggers : ∀ attempted s, TickMoves anew s (c.afterTriggers attempted s)

section Ticks

variable {s} {c : Course} (moves : CourseMoves anew c) (l : LaneId)

include moves

theorem moves_told (e : Option ErrorDetail) : TickMoves anew s (c.told s e) := by
  cases e with
  | none => exact .refl s
  | some e => exact moves.tell s e

theorem moves_laterSteps (source : Sourced) : TickMoves anew s (laterSteps c s l source).state := by
  have triggered := (moves.afterSource s).trans (moves_step2 (c.afterSource s) l source.presented)
  unfold laterSteps
  split
  · next k => rw [k] at triggered; exact triggered
  · next t attempted k =>
    rw [k] at triggered
    have counted := (triggered.trans (moves.afterTriggers attempted t)).trans
      (moves_step3 (c.afterTriggers attempted t) l)
    split
    · next k => rw [k] at counted; exact counted
    · next k => rw [k] at counted; exact counted.trans (moves_lastSteps _ c l source _)

/-- What a tick in RUNNING or DRAINING makes of the lanes once it is counted. -/
theorem moves_fullTick : TickMoves anew (s.modLane l Lane.countTickTaken) (fullTick c s l).1 := by
  have sourced := moves_sourceStage (anew := anew) (s.modLane l Lane.countTickTaken) l
  unfold fullTick
  dsimp only
  generalize sourceStage (s.modLane l Lane.countTickTaken) l = source at sourced ⊢
  have later := (sourced.trans (moves_told moves source.2.error)).trans (moves_laterSteps moves l source.2)
  split
  · next k => rw [k] at later; exact later
  · next k => rw [k] at later; exact later.trans (moves.tell _ _)

/-- What a tick in HALTED makes of the lanes once it is counted. -/
theorem moves_haltedTick : TickMoves anew (s.modLane l Lane.countTickTaken) (haltedTick c s l).1 := by
  unfold haltedTick
  dsimp only
  split
  · exact moves_handOver _ l _
  · have sensed (u : State) (e : Int) :
        TickMoves anew u (u.modLane l fun x => { x.consumeLive with prev := some e }) :=
      .of_setLane (.tail (.single (.consumed _)) (.sensed _ e))
    split
    · exact (sensed _ _).trans <| (moves.tell _ _).trans (moves_handOver _ l _)
    · exact (sensed _ _).trans <| (moves_pushed _ l _).trans (moves_handOver _ l _)

omit moves in
/-- What a tick of a LIVE lane while the link is LOST makes of the lanes once it is counted. -/
theorem moves_lostTick : TickMoves anew (s.modLane l Lane.countTickTaken) (lostTick s l) := by
  have lost : TickMoves anew (s.modLane l Lane.countTickTaken) ((s.modLane l Lane.countTickTaken).modLane l fun x =>
      { x with counters := { x.counters with lostTicks := countUp x.counters.lostTicks } }) :=
    .of_modLane _ l (.lost _)
  rw [Conversion.modLane_modLane] at lost
  exact lost.trans (moves_handOver _ l _)

/-- A lane that takes ticks counts the tick, and all else that the tick makes of the lanes is moves. -/
theorem moves_laneTick_counted (ticks : ((c.takeEnds s).lane l).takesTicks = true) :
    TickMoves anew ((c.takeEnds s).modLane l Lane.countTickTaken) (laneTick c s l).1 := by
  unfold laneTick
  dsimp only
  unfold Lane.takesTicks at ticks
  split
  · next off => simp [off] at ticks
  · next primed => simp [primed] at ticks
  · split
    · exact moves_lostTick l
    · exact moves_fullTick moves l
  · exact moves_fullTick moves l
  · split
    · exact moves_haltedTick moves l
    · next halted other => simp [halted, other] at ticks

omit moves in
/-- A lane that takes no ticks is left as the ends before its tick leave it. -/
theorem laneTick_idle (idle : ((c.takeEnds s).lane l).takesTicks = false) :
    (laneTick c s l).1 = c.takeEnds s := by
  unfold laneTick
  dsimp only
  unfold Lane.takesTicks at idle
  split
  · rfl
  · rfl
  · next running => simp [running] at idle
  · next draining => simp [draining] at idle
  · next halted => simp_all

theorem moves_laneTick (allowed : anew) : TickMoves anew s (laneTick c s l).1 := by
  refine (moves.takeEnds s).trans ?_
  cases ticks : ((c.takeEnds s).lane l).takesTicks with
  | true => exact (TickMoves.of_modLane _ l (.counted allowed _)).trans (moves_laneTick_counted moves l ticks)
  | false => rw [laneTick_idle l ticks]; exact .refl _

end Ticks

/-! ## Within a tick, and a soft reset before what an event sends has arrived (R126, R147, R164) -/

theorem moves_placeReply (r : Reply) : TickMoves anew s (placeReply s r) := by
  unfold placeReply
  split <;> exact .of_same rfl rfl

theorem moves_holdUnit (job : Job) : TickMoves anew s (holdUnit s job) := .of_same rfl rfl

theorem moves_answer (p : Place) (r : State × Answer) : TickMoves anew r.1 (answer p r) := by
  unfold answer
  split
  · exact moves_placeReply _ _
  · exact moves_holdUnit _ _

theorem moves_takeHead (c : Command) {run : Place → State → State × Answer}
    (h : ∀ p s, TickMoves anew s (run p s).1) : TickMoves anew s (takeHead c run s) := by
  unfold takeHead
  split
  · next p _ =>
    split
    · split
      · exact moves_answer p (s, refusedWith _)
      · exact (h p s).trans (moves_answer p _)
    · exact .refl s
  · exact .refl s

theorem moves_disarmAll (chosen : RuleId → Bool) : TickMoves anew s (disarmAll s chosen).1 :=
  (TickMoves.of_mapLanes fun _ _ => .single (.cut List.filter_sublist)).trans (moves_mapRules _ _)

theorem moves_runDisarmRule (p : Place) (s : State) : TickMoves anew s (runDisarmRule p s).1 := by
  unfold runDisarmRule
  split
  · exact .refl s
  · split
    · exact .refl s
    · exact moves_disarmAll s _

theorem moves_runDisarmGroup (p : Place) (s : State) : TickMoves anew s (runDisarmGroup p s).1 := by
  unfold runDisarmGroup
  split
  · exact moves_disarmAll s _
  · exact .refl s

/-- A command of two forms or modes refuses a record of another (R169). -/
theorem moves_ite_refused {b : Prop} [Decidable b] {s : State} {r : State × Answer} (st : Status)
    (h : TickMoves anew s r.1) : TickMoves anew s (if b then r else (s, refusedWith st)).1 := by
  split
  · exact h
  · exact .refl s

theorem moves_runDisarm (p : Place) (s : State) : TickMoves anew s (runDisarm p s).1 := by
  unfold runDisarm
  split
  · exact moves_runDisarmRule p s
  · exact moves_ite_refused _ (moves_runDisarmGroup p s)

theorem moves_takeWithin (e : TickEvent) : TickMoves anew s (takeWithin s e) := by
  cases e with
  | disarm => exact moves_takeHead s _ moves_runDisarm
  | ruleEnd r =>
    unfold takeWithin
    dsimp only
    split
    · exact moves_endActivation s r
    · exact .refl s

theorem moves_takeLate (attempted : List RuleId) (s : State) (e : TickEvent) :
    TickMoves anew s (takeLate attempted s e) := by
  unfold takeLate
  dsimp only
  split
  · exact .refl s
  · exact moves_takeWithin s e

theorem courseOf_moves {tell : State → ErrorDetail → State} (h : ∀ s e, TickMoves anew s (tell s e))
    (replaced : Nat → State → State) (w : Within) : CourseMoves anew (courseOf tell replaced w) where
  takeEnds s := moves_settleBut s _
  tell := h
  afterSource s := moves_foldl _ moves_takeWithin _ s
  afterTriggers attempted s := moves_foldl _ (moves_takeLate attempted) _ s

theorem lane_softReset (l : LaneId) : (softReset s).lane l = (s.lane l).softReset := by
  have mapped := State.lane_mapRules (s.mapLanes fun _ x => x.softReset) (fun _ r => r.softReset) l
  rw [State.lane_mapLanes] at mapped
  exact mapped

theorem moves_softReset (allowed : anew) : TickMoves anew s (softReset s) where
  lane l := by
    rw [lane_softReset]
    exact .single (.reset allowed _)
  fillQueue := by simp [softReset, Directory.softReset]

theorem moves_tellAmong (told : List ErrorDetail) (s : State) (e : ErrorDetail) :
    TickMoves anew s (tellAmong told s e) := by
  unfold tellAmong
  split
  · exact moves_report s e
  · exact .refl s

theorem moves_arrive (a : Arrived) (sent : ReturnSender) : TickMoves anew s (arrive a sent s) := by
  have offered := (moves_foldl (anew := anew) _ (fun s (n : Notice) => moves_offerNotice s n.kind n.payload)
    (sent.notices.drop a.notices) s).trans (moves_foldl _ moves_offerTap (sent.taps.drop a.taps) _)
  exact offered.trans (.of_same rfl rfl)

theorem moves_resetThenArrive (allowed : anew) (a : Arrived) (late : List ErrorDetail) :
    TickMoves anew s (resetThenArrive a late s) :=
  (moves_takeHead s .reset fun _ s => moves_softReset s allowed).trans <|
    (moves_foldl _ moves_takeReport _ _).trans <|
      (moves_arrive _ a _).trans (moves_foldl _ moves_takeReport _ _)

/-- An event whose effect is moves however its errors are told is moves with a soft reset taken before all of it has
arrived. -/
theorem moves_resetAmid (allowed : anew) (reset : Option Arrived)
    (run : (State → ErrorDetail → State) → State → TickEnd)
    (h : ∀ tell, (∀ s e, TickMoves anew s (tell s e)) → ∀ s, TickMoves anew s (run tell s).1) :
    TickMoves anew s (resetAmid reset run s) := by
  have whole := h report moves_report s
  have quiet : TickMoves anew s { s with ret := s.ret.quiet } := .of_same rfl rfl
  cases reset with
  | none => exact whole
  | some a =>
    simp only [resetAmid]
    split
    · exact quiet.trans <| (h _ (moves_tellAmong _) _).trans <|
        (moves_settle _).trans (moves_resetThenArrive _ allowed a _)
    · exact whole

/-- A tick with what is taken within it, `replaced` putting points of a curve in their places. -/
theorem moves_tickWith {replaced : Nat → State → State} (h : ∀ n s, TickMoves True s (replaced n s)) (w : Within)
    (l : LaneId) : TickMoves True s (tickWith replaced w s l) :=
  (h w.low s).trans <| (moves_resetAmid _ trivial w.reset _ fun _ tell _ =>
    moves_laneTick (courseOf_moves tell replaced w) l trivial).trans (h w.high _)

end Sys2Proof.LaneMoves
end

section
/-! PROOFS. O4 and O5: every step keeps each lane's history, chain, replay queue with its reserved places, and debt
within their bounds (R23, R49, R62, R104), and the state after reset keeps all bounds. -/

namespace Sys2Proof.LaneBounds

open Sys2Proof.Machine Sys2Proof.LaneMoves

/-! ## The bounds of one lane -/

theorem length_chainInsert (priority : RuleId → Nat) (i : RuleId) (chain : List RuleId) :
    (chainInsert priority i chain).length = chain.length + 1 :=
  (FaultRules.chainInsert_perm priority i chain).length_eq

/-- What leaves history and chain, queue, fetch and debt as they are keeps a lane within its bounds. -/
theorem fits_congr {x y : Lane} (history : y.history = x.history) (chain : y.chain = x.chain)
    (queue : y.queue = x.queue) (fetch : y.fetch = x.fetch) (debt : y.debt = x.debt) (fits : x.fits) : y.fits := by
  simpa only [Lane.fits, Lane.fill, Lane.reserved, history, chain, queue, fetch, debt] using fits

theorem reserved_voidFetch (x : Lane) : x.voidFetch.reserved = x.reserved := by
  cases held : x.fetch <;> simp [Lane.reserved, Lane.voidFetch, held]

theorem length_pushHistory_le (h : List OutCode) (w : OutCode) : (pushHistory h w).length ≤ 64 :=
  List.length_take_le 64 _

theorem fits_releaseReplay {x : Lane} (fits : x.fits) : x.releaseReplay.fits := by
  obtain ⟨history, chain, places, debt⟩ := fits
  have reserved := reserved_voidFetch x
  refine ⟨history, chain, ?_, Nat.zero_le _⟩
  change 0 + x.voidFetch.reserved ≤ 48
  omega

theorem fits_handed {x : Lane} (now : Nat) (w : PortWord) (fits : x.fits) : (x.handed now w).fits := by
  unfold Lane.handed
  dsimp only
  split <;> exact fits_congr rfl rfl rfl rfl rfl fits

theorem fits_underrun {x : Lane} (fits : x.fits) : x.underrun.fits := by
  obtain ⟨history, chain, places, debt⟩ := fits
  refine ⟨history, chain, places, ?_⟩
  unfold Lane.underrun
  dsimp only
  split
  · exact debt
  · exact Nat.min_le_right _ _

/-- The head word leaves a queue that the debt has only shortened. -/
theorem fits_played {x : Lane} {q : QueueWord} {rest : List QueueWord} (queued : x.payDebt.queue = q :: rest)
    (fits : x.fits) : Lane.fits { x.payDebt with queue := rest } := by
  obtain ⟨history, chain, places, debt⟩ := fits
  have shorter : rest.length + 1 ≤ x.fill := by
    rw [← List.length_cons (a := q), ← queued]
    exact (List.drop_sublist _ _).length_le
  refine ⟨history, chain, ?_, (Nat.sub_le _ _).trans debt⟩
  change rest.length + x.reserved ≤ 48
  omega

theorem fits_softReset {x : Lane} (fits : x.fits) : x.softReset.fits := by
  obtain ⟨-, -, places, debt⟩ := fits_releaseReplay fits
  exact ⟨Nat.zero_le _, Nat.zero_le _, places, debt⟩

theorem fits_countSaturation {x : Lane} (clamped : Bool) (fits : x.fits) : (x.countSaturation clamped).fits := by
  cases clamped <;> exact fits_congr rfl rfl rfl rfl rfl fits

theorem fits_of_move {anew : Prop} {x y : Lane} (move : LaneMove anew x y) (fits : x.fits) : y.fits := by
  cases move with
  | cut fewer => exact ⟨fits.1, fewer.length_le.trans fits.2.1, fits.2.2⟩
  | joined priority i room => exact ⟨fits.1, by rw [length_chainInsert]; exact room, fits.2.2⟩
  | released => exact fits_congr (x := x.releaseReplay) rfl rfl rfl rfl rfl (fits_releaseReplay fits)
  | off => exact fits_congr rfl rfl rfl rfl rfl fits
  | halted => exact fits_congr rfl rfl rfl rfl rfl fits
  | handed _ now w => exact fits_handed now w fits
  | consumed => exact fits_congr rfl rfl rfl rfl rfl fits
  | underrun => exact fits_underrun fits
  | played queued => exact fits_played queued fits
  | sensed => exact fits_congr rfl rfl rfl rfl rfl fits
  | drawn => exact fits_congr rfl rfl rfl rfl rfl fits
  | saturated _ clamped => exact fits_countSaturation clamped fits
  | pushed _ w => exact ⟨length_pushHistory_le _ w, fits.2⟩
  | lost => exact fits_congr rfl rfl rfl rfl rfl fits
  | counted => exact fits_congr rfl rfl rfl rfl rfl fits
  | reset => exact fits_softReset fits

theorem fits_of_moves {anew : Prop} {x y : Lane} (moves : Moves anew x y) (fits : x.fits) : y.fits := by
  induction moves with
  | refl => exact fits
  | tail _ move ih => exact fits_of_move move ih

/-! ## Lanes that keep within their bounds -/

/-- Where a lane of `s` fits, that lane of `t` does. -/
structure LanesKept (s t : State) : Prop where
  lane : ∀ l, (s.lane l).fits → (t.lane l).fits

theorem LanesKept.refl (s : State) : LanesKept s s := ⟨fun _ => id⟩

theorem LanesKept.trans {s t u : State} (a : LanesKept s t) (b : LanesKept t u) : LanesKept s u :=
  ⟨fun l fits => b.lane l (a.lane l fits)⟩

/-- The second of two changes, after the first. -/
theorem LanesKept.after {s t u : State} (b : LanesKept t u) (a : LanesKept s t) : LanesKept s u := a.trans b

theorem LanesKept.of_moves {anew : Prop} {s t : State} (moves : TickMoves anew s t) : LanesKept s t :=
  ⟨fun l => fits_of_moves (moves.lane l)⟩

theorem LanesKept.of_same {s t : State} (lanes : t.lanes = s.lanes) : LanesKept s t :=
  ⟨fun l fits => by rwa [State.lane, lanes]⟩

theorem lanesKept_foldl {α : Type} (f : State → α → State) (h : ∀ s a, LanesKept s (f s a)) (l : List α)
    (s : State) : LanesKept s (l.foldl f s) := by
  induction l generalizing s with
  | nil => exact .refl s
  | cons a rest ih => exact (h s a).trans (ih _)

/-- A lane that keeps within its bounds takes the place of another. -/
theorem LanesKept.of_setLane (s : State) (l : LaneId) {x : Lane} (kept : (s.lane l).fits → x.fits) :
    LanesKept s (s.setLane l x) := by
  refine ⟨fun k fits => ?_⟩
  rw [State.lane_setLane]
  split
  · next same => exact kept (same ▸ fits)
  · exact fits

theorem LanesKept.of_modLane (s : State) (l : LaneId) (f : Lane → Lane) (kept : ∀ x, x.fits → (f x).fits) :
    LanesKept s (s.modLane l f) := .of_setLane s l (kept _)

theorem LanesKept.of_mapLanes (s : State) {f : LaneId → Lane → Lane} (kept : ∀ l x, x.fits → (f l x).fits) :
    LanesKept s (s.mapLanes f) :=
  ⟨fun l fits => by rw [State.lane_mapLanes]; exact kept l _ fits⟩

variable (s : State)

theorem lanesKept_settle : LanesKept s (settle s) := .of_moves (anew := True) (moves_settle s)

theorem lanesKept_reach (time : Nat) : LanesKept s (s.reach time) := .of_same rfl

theorem lanesKept_setGroup (g : GroupId) (x : BankGroup) : LanesKept s (s.setGroup g x) := .of_same rfl

theorem lanesKept_report (e : ErrorDetail) : LanesKept s (report s e) := .of_moves (anew := True) (moves_report s e)

theorem lanesKept_offerNotice (kind : NoticeKind) (words : List Word) : LanesKept s (offerNotice s kind words) :=
  .of_same (offerNotice_lanes s kind words)

/-! ## Ticks and marks, alone or among the replacements of a curve load (R14, R79, R151) -/

theorem fits_startRunning {x : Lane} (now : Nat) (fits : x.fits) : (x.startRunning now).fits := by
  unfold Lane.startRunning
  split <;> exact fits_congr rfl rfl rfl rfl rfl fits

theorem moves_replacePoints (c : CurveId) (k : Nat) (values : List Word) (s : State) :
    TickMoves True s (replacePoints c k values s) := by
  induction values generalizing k s with
  | nil => exact .refl s
  | cons v rest ih =>
    refine TickMoves.trans ?_ (ih _ _)
    unfold replacePoint
    split <;> exact .of_same rfl rfl

section Replaced

variable {replaced : Nat → State → State} (h : ∀ n s, TickMoves True s (replaced n s))

include h

theorem lanesKept_takeMark (number : Word) (taker : MarkTaker) :
    LanesKept s (takeMark (tickWith replaced) number s taker) := by
  cases taker with
  | ruleTable => exact .of_moves (anew := True) (moves_ruleTableMark s number)
  | lane l w =>
    have ticked (u : State) : LanesKept u (tickWith replaced w u l) := .of_moves (moves_tickWith u h w l)
    have counts (n : Nat) : LanesKept s (s.setLane l { s.lane l with markCount := n }) :=
      .of_setLane s l (fits_congr rfl rfl rfl rfl rfl)
    simp only [takeMark, laneTakesMark]
    split
    · split
      · exact (LanesKept.of_setLane s l (fits_startRunning s.now)).trans (ticked _)
      · exact .refl s
    · split
      · exact (counts _).trans (ticked _)
      · exact counts _
    · exact .refl s

theorem lanesKept_cycleMark (number : Word) (order : List MarkTaker) :
    LanesKept s (cycleMark replaced number order s) := by
  have marked (u : State) : LanesKept u (linkTakesMark (checkJump u number) number) := by
    unfold checkJump linkTakesMark
    dsimp only
    split
    · exact .of_same rfl
    · exact .of_same (offerNotice_lanes _ _ _)
  exact (lanesKept_settle s).trans <| (marked _).trans <|
    lanesKept_foldl _ (fun s => lanesKept_takeMark s h number) _ _

theorem lanesKept_timedTick {s t : State} {tick : TickOf} (taken : timedTick replaced tick s = some t) :
    LanesKept s t := by
  unfold timedTick at taken
  split at taken
  · cases taken
    exact (LanesKept.of_moves (moves_tickWith _ h tick.within tick.lane)).after <|
      (lanesKept_reach s _).trans (.of_modLane _ tick.lane _ fun _ => fits_congr rfl rfl rfl rfl rfl)
  · cases taken
  · cases taken

theorem lanesKept_takeAmong (e : CurveEvent) : LanesKept s (takeAmong replaced s e) := by
  cases e with
  | tick t =>
    simp only [takeAmong]
    cases taken : timedTick replaced t s with
    | none => exact .refl s
    | some u => exact lanesKept_timedTick h taken
  | mark number order => exact lanesKept_cycleMark s h number order

end Replaced

theorem lanesKept_replaceAmong (among : List CurveEvent) (c : CurveId) (k : Nat) (values : List Word) :
    LanesKept s (replaceAmong among c k values s) :=
  (lanesKept_foldl _ (fun s => lanesKept_takeAmong s fun n => moves_replacePoints c k (values.take n))
    among s).trans (.of_moves (moves_replacePoints c k values _))

/-! ## The replay queue (R55 to R57, R63, R65) -/

theorem fits_placeFetch {x : Lane} (m : Memory) (fits : x.fits) : (x.placeFetch m).fits := by
  obtain ⟨history, chain, places, debt⟩ := fits
  cases held : x.fetch with
  | none => rw [Lane.placeFetch, held]; exact ⟨history, chain, places, debt⟩
  | some f =>
    rw [Replay.placeFetch_of_fetch m held]
    simp only [Lane.fill, Lane.reserved, held] at places
    refine ⟨history, chain, ?_, debt⟩
    simpa [Lane.fill, Lane.reserved] using places

theorem fits_dropFetch {x : Lane} (fits : x.fits) : x.dropFetch.fits := by
  obtain ⟨history, chain, places, debt⟩ := fits
  refine ⟨history, chain, ?_, debt⟩
  change x.fill + 0 ≤ 48
  omega

/-- A queue that has only been shortened, with the fetch as it was or voided. -/
theorem fits_shortened {x : Lane} {queue : List QueueWord} (pos : FetchPosition) (shorter : queue.length ≤ x.fill)
    (fits : x.fits) : Lane.fits { x.voidFetch with queue := queue, fetchPos := pos } := by
  obtain ⟨history, chain, places, debt⟩ := fits
  have reserved := reserved_voidFetch x
  refine ⟨history, chain, ?_, debt⟩
  change queue.length + x.voidFetch.reserved ≤ 48
  omega

theorem fits_truncate {x : Lane} (written : List Nat) (fits : x.fits) : (x.truncate written).fits := by
  unfold Lane.truncate
  dsimp only
  split
  · exact fits_shortened _ (List.takeWhile_sublist _).length_le fits
  · split
    · split
      · exact fits_shortened (queue := x.queue) _ (Nat.le_refl _) fits
      · exact fits
    · exact fits

theorem length_throughEndOfPass {queue kept : List QueueWord} (h : throughEndOfPass queue = some kept) :
    kept.length ≤ queue.length := by
  induction queue generalizing kept with
  | nil => cases h
  | cons q rest ih =>
    unfold throughEndOfPass at h
    split at h
    · cases h
      simp
    · split at h
      · next inner => cases h; exact Nat.succ_le_succ (ih inner)
      · cases h

theorem fits_drain {x : Lane} (fits : x.fits) : x.drain.fits := by
  unfold Lane.drain
  split
  · next kept =>
    exact fits_congr rfl rfl rfl rfl rfl (fits_shortened .ended (length_throughEndOfPass kept) fits)
  · split <;> exact fits_congr rfl rfl rfl rfl rfl fits

theorem lanesKept_issueFetch {l : LaneId} {words : List FetchWord} (e : PlaylistEntry)
    (free : (s.lane l).fetch = none) (room : words.length ≤ (s.lane l).freePlaces) :
    LanesKept s (issueFetch s l e words) := by
  unfold issueFetch
  split
  · exact .refl s
  · refine (LanesKept.of_setLane s l fun fits => ?_).trans (.of_same rfl)
    obtain ⟨history, chain, places, debt⟩ := fits
    refine ⟨history, chain, ?_, debt⟩
    have none_reserved : (s.lane l).reserved = 0 := by rw [Lane.reserved, free]
    change (s.lane l).fill + words.length ≤ 48
    simp only [Lane.freePlaces, Config.replayPlaces] at room
    omega

theorem fetchWanted_free {x : Lane} {p : Position} (wanted : x.fetchWanted = some p) : x.fetch = none := by
  unfold Lane.fetchWanted at wanted
  split at wanted
  · next wants => simp only [Bool.and_eq_true, Option.isNone_iff_eq_none] at wants; exact wants.1.1.2
  · cases wanted

/-! ## The commands of records -/

section Commands

variable (p : Place)

theorem lanesKept_answer (r : State × Answer) : LanesKept r.1 (answer p r) :=
  .of_moves (anew := True) (moves_answer p r)

theorem lanesKept_ite_refused {b : Prop} [Decidable b] {s : State} {r : State × Answer} (st : Status)
    (h : LanesKept s r.1) : LanesKept s (if b then r else (s, refusedWith st)).1 := by
  split
  · exact h
  · exact .refl s

theorem lanesKept_linkLost (s : State) : LanesKept s (linkLost s) := .of_same (offerNotice_lanes _ _ _)

theorem lanesKept_runSetReporting : LanesKept s (runSetReporting p s).1 := by
  unfold runSetReporting
  split
  · exact .refl s
  · dsimp only [applySilenceLimit]
    split
    · exact (lanesKept_linkLost _).after (.of_same rfl)
    · exact .of_same rfl

theorem lanesKept_runConfigLane : LanesKept s (runConfigLane p s).1 := by
  unfold runConfigLane
  (repeat' split) <;> first | exact .refl s | exact .of_setLane s _ (fits_congr rfl rfl rfl rfl rfl)

theorem lanesKept_runSetPlaylist : LanesKept s (runSetPlaylist p s).1 := by
  unfold runSetPlaylist
  dsimp only
  (repeat' split) <;> first | exact .refl s | exact .of_setLane s _ (fits_congr rfl rfl rfl rfl rfl)

theorem lanes_addUse (blocks : List BlockId) (s : State) : (addUse s blocks).lanes = s.lanes := by
  unfold addUse
  induction blocks generalizing s with
  | nil => rfl
  | cons b rest ih => rw [List.foldl_cons, ih]; rfl

theorem fits_prime {x : Lane} (start : Word) (late : Bool) (blocks : List BlockId) (fits : x.fits) :
    (x.prime start late blocks).fits := by
  obtain ⟨-, chain, places, -⟩ := fits
  exact ⟨Nat.zero_le _, chain, places, Nat.zero_le _⟩

theorem lanesKept_primeLane (start : Word) (late : Bool) (s : State) (l : LaneId) :
    LanesKept s (primeLane start late s l) :=
  (LanesKept.of_same (lanes_addUse _ s)).trans <|
    (LanesKept.of_setLane _ l (fits_prime start late _)).trans (.of_same (State.mapRules_lanes _ _))

theorem lanesKept_runStartLanes : LanesKept s (runStartLanes p s).1 := by
  unfold runStartLanes
  split
  · exact .refl s
  · exact lanesKept_foldl _ (lanesKept_primeLane _ _) _ s

theorem lanesKept_laneOff (s : State) (l : LaneId) : LanesKept s (laneOff s l) :=
  .of_moves (anew := True) (moves_laneOff s l)

theorem lanesKept_stopLaneNow (s : State) (l : LaneId) : LanesKept s (stopLaneNow s l) := by
  unfold stopLaneNow
  split
  · exact (lanesKept_laneOff s l).trans (.of_setLane _ l (fits_congr rfl rfl rfl rfl rfl))
  · exact .refl s

theorem lanesKept_stopLaneDrain (s : State) (l : LaneId) : LanesKept s (stopLaneDrain s l) := by
  unfold stopLaneDrain
  dsimp only
  split
  · split
    · exact .of_setLane s l fits_drain
    · exact lanesKept_stopLaneNow s l
  · exact .refl s
  · exact lanesKept_stopLaneNow s l
  · exact .refl s
  · exact .refl s

theorem lanesKept_runStop {stop : State → LaneId → State} (h : ∀ s l, LanesKept s (stop s l)) :
    LanesKept s (runStop stop p s).1 := by
  unfold runStop
  split
  · exact .refl s
  · exact lanesKept_foldl _ h _ s

theorem lanesKept_runResetLane : LanesKept s (runResetLane p s).1 := by
  unfold runResetLane
  split
  · exact .refl s
  · refine (lanesKept_laneOff s _).trans (.of_setLane _ _ fun fits => ?_)
    exact ⟨Nat.zero_le _, fits.2⟩

theorem lanesKept_runLoadCurve (among : List CurveEvent) : LanesKept s (runLoadCurve among p s).1 := by
  unfold runLoadCurve
  split
  · exact .refl s
  · split
    · exact lanesKept_replaceAmong s among _ _ _
    · exact .refl s

theorem lanesKept_fillNext (s : State) : LanesKept s (fillNext s) := by
  unfold fillNext
  split <;> exact .of_same rfl

/-- Every check of R35 refuses the record and changes nothing. -/
theorem lanesKept_runDefineBlock : LanesKept s (runDefineBlock p s).1 := by
  unfold runDefineBlock
  dsimp only
  iterate 5 (split <;> [exact .refl s; skip])
  unfold defineBlock
  dsimp only
  split
  · exact (lanesKept_fillNext _).after (.of_same rfl)
  · exact .of_same rfl

theorem lanesKept_runWriteStart : LanesKept s (runWriteStart p s).1 := by
  unfold runWriteStart refuseStart writeThrough
  dsimp only
  (repeat' split) <;> exact .of_same rfl

theorem lanesKept_runWriteContinue : LanesKept s (runWriteContinue p s).1 := by
  unfold runWriteContinue writeThrough
  dsimp only
  (repeat' split) <;> exact .of_same rfl

theorem lanesKept_armAll (chosen : RuleId → Bool) : LanesKept s (armAll s chosen).1 :=
  .of_same (State.mapRules_lanes s _)

theorem lanesKept_runArmRule : LanesKept s (runArmRule p s).1 := by
  unfold runArmRule
  (repeat' split) <;> first | exact .refl s | exact lanesKept_armAll s _

theorem lanesKept_runArmGroup : LanesKept s (runArmGroup p s).1 := by
  unfold runArmGroup
  split
  · exact lanesKept_armAll s _
  · exact .refl s

theorem lanesKept_runFire : LanesKept s (runFire p s).1 := by
  unfold runFire
  split
  · exact .of_same (State.mapRules_lanes s _)
  · exact .refl s

/-- Commands that leave the lanes as they are: DELETE_BLOCK, READ_DIRECTORY, READ_TRACE, READ_LANE, LOAD_RULE,
CLEAR_RULE, READ_RULE. -/
theorem lanes_runDeleteBlock : (runDeleteBlock p s).1.lanes = s.lanes := by
  unfold runDeleteBlock
  (repeat' split) <;> rfl

theorem lanes_runReadDirectory : (runReadDirectory p s).1.lanes = s.lanes := by
  unfold runReadDirectory
  dsimp only
  (repeat' split) <;> rfl

theorem lanes_runReadTrace : (runReadTrace p s).1.lanes = s.lanes := by
  unfold runReadTrace
  dsimp only
  (repeat' split) <;> rfl

theorem lanes_runReadLane : (runReadLane p s).1.lanes = s.lanes := by
  unfold runReadLane
  split <;> rfl

theorem lanes_runLoadRule : (runLoadRule p s).1.lanes = s.lanes := by
  unfold runLoadRule
  (repeat' split) <;> rfl

theorem lanes_runClearRule : (runClearRule p s).1.lanes = s.lanes := by
  unfold runClearRule
  (repeat' split) <;> rfl

theorem lanes_runReadRule : (runReadRule p s).1.lanes = s.lanes := by
  unfold runReadRule
  split <;> rfl

end Commands

/-! ## How rows answer -/

section Rows

variable {s} {t : State}

theorem lanesKept_whenPossible {possible : Bool} {m : String} {effect : State} (h : LanesKept s effect)
    (row : whenPossible possible m effect = .next t) : LanesKept s t := by
  obtain ⟨-, rfl⟩ := whenPossible_eq_next.1 row
  exact h

theorem lanesKept_fromOutside {wait : Nat} {effect : State → State} (h : ∀ s, LanesKept s (effect s))
    (row : fromOutside s wait effect = .next t) : LanesKept s t := by
  unfold fromOutside at row
  split at row <;> cases row
  · exact .refl s
  · exact (h (s.pass wait)).after (.of_same rfl)

theorem lanesKept_takeRecord {m : String} {mine : Place → Bool} {run : Place → State → State × Answer}
    (h : ∀ p s, LanesKept s (run p s).1) (row : takeRecord m mine run s = .next t) : LanesKept s t := by
  obtain ⟨p, rest, -, -, ⟨st, -, rfl⟩ | ⟨-, rfl⟩⟩ := takeRecord_next row
  · exact (lanesKept_settle s).trans (lanesKept_answer p (settle s, refusedWith st))
  · exact (lanesKept_settle s).trans <| (h p _).trans (lanesKept_answer p _)

/-- A command that answers from the state it finds. -/
theorem lanesKept_unchanged {m : String} {mine : Place → Bool} {reply : State → Answer}
    (row : takeRecord m mine (fun _ s => (s, reply s)) s = .next t) : LanesKept s t :=
  lanesKept_takeRecord (fun _ s => .refl s) row

theorem lanesKept_takeRecord_same {m : String} {mine : Place → Bool} {run : Place → State → State × Answer}
    (h : ∀ p s, (run p s).1.lanes = s.lanes) (row : takeRecord m mine run s = .next t) : LanesKept s t :=
  lanesKept_takeRecord (fun p s => .of_same (h p s)) row

end Rows

/-! ## The other rows -/

theorem lanesKept_takeSampleWord (data : Word) : LanesKept s (takeSampleWord s data) := by
  unfold takeSampleWord
  split
  · exact .of_setLane s _ (fits_congr rfl rfl rfl rfl rfl)
  · exact .of_same rfl

theorem lanesKept_takeHeader (data : Word) : LanesKept s (takeHeader s data) := by
  have ended : LanesKept s (endAssembly s) := by
    unfold endAssembly
    split <;> exact .of_same rfl
  refine ended.trans ?_
  unfold takeHeader
  dsimp only
  split
  · exact .of_same rfl
  · exact .of_same (offerNotice_lanes _ _ _)

theorem lanesKept_takePayload (data : Word) : LanesKept s (takePayload s data) := by
  unfold takePayload
  dsimp only
  (repeat' split) <;> exact .of_same rfl

theorem lanesKept_takeBadWord : LanesKept s (takeBadWord s) := by
  refine LanesKept.trans ?_ (lanesKept_report _ _)
  dsimp only
  split <;> exact .of_same rfl

theorem lanesKept_corrupt (item : Corruption) : LanesKept s (corrupt s item) := by
  cases item with
  | curvePoint => exact .of_same rfl
  | ruleRecord => exact .of_same rfl
  | playlistEntry l => exact .of_setLane s l (fits_congr rfl rfl rfl rfl rfl)

theorem lanesKept_strobe (l : LaneId) (now : Nat) (w : Transfer) : LanesKept s (s.modLane l (Lane.strobe now w)) := by
  refine .of_setLane s l fun fits => ?_
  unfold Lane.strobe
  dsimp only
  split <;> exact fits_congr rfl rfl rfl rfl rfl fits

theorem lanesKept_completeAccess (g : GroupId) (a : Access) : LanesKept s (completeAccess s g a) :=
  ⟨fun l fits => by rwa [completeAccess_lane]⟩

theorem lanesKept_fillCompleted : LanesKept s (fillCompleted s) := by
  have ready (u : State) (b : BlockId) : LanesKept u (blockReady u b) := .of_same (offerNotice_lanes _ _ _)
  have idle (d : Directory) : LanesKept s { s with dir := d } := .of_same rfl
  unfold fillCompleted
  dsimp only
  split
  · exact (idle _).trans (lanesKept_fillNext _)
  · split
    · exact idle _
    · split
      · exact (idle _).trans <| (ready _ _).trans (lanesKept_fillNext _)
      · exact (idle _).trans (lanesKept_fillNext _)

theorem lanesKept_reportWritten (written : List Nat) : LanesKept s (reportWritten s written) := by
  unfold reportWritten
  split
  · refine .of_mapLanes s fun _ x fits => ?_
    split
    · exact fits_truncate written fits
    · exact fits
  · exact .refl s

theorem lanesKept_sendNext : LanesKept s (sendNext s) := by
  unfold sendNext
  split <;> exact .of_same rfl

theorem lanesKept_returnGoesOn : LanesKept s (returnGoesOn s) := by
  unfold returnGoesOn
  split
  · exact .of_same rfl
  · exact (lanesKept_sendNext _).after (.of_same rfl)
  · exact lanesKept_sendNext s

section Events

variable {s} {t : State}

theorem lanesKept_returnWordSent (row : execReturnWordSent s = .next t) : LanesKept s t := by
  refine (lanesKept_settle s).trans ?_
  unfold execReturnWordSent at row
  dsimp only at row
  split at row
  · cases row
    exact (lanesKept_returnGoesOn _).after (.of_same rfl)
  · exact lanesKept_whenPossible (lanesKept_returnGoesOn _) row

theorem lanesKept_timedTickRow {tick : TickOf} (row : execTimedTick tick s = .next t) : LanesKept s t := by
  unfold execTimedTick at row
  split at row
  · next taken =>
    cases row
    exact lanesKept_timedTick (fun _ => .refl) taken
  · cases row

theorem lanesKept_portTransferComplete {l : LaneId} (row : execPortTransferComplete l s = .next t) :
    LanesKept s t := by
  unfold execPortTransferComplete at row
  split at row <;> cases row
  exact (lanesKept_strobe _ l _ _).after (.of_same rfl)

theorem lanesKept_fetchIssue {fetch : FetchOf} (row : execFetchIssue fetch s = .next t) : LanesKept s t := by
  have failed (e : ErrorDetail) : LanesKept (settle s) (playlistFails fetch (settle s) e) :=
    .of_moves (moves_resetAmid _ trivial fetch.reset _ fun _ tell s => tell s e)
  refine (lanesKept_settle s).trans ?_
  unfold execFetchIssue at row
  dsimp only at row
  split at row
  · cases row
  · next wanted =>
    split at row
    · cases row
      exact failed _
    · split at row
      · obtain ⟨room, rfl⟩ := whenPossible_eq_next.1 row
        exact lanesKept_issueFetch _ _ (fetchWanted_free wanted) (of_decide_eq_true room)
      · cases row
        exact failed _

theorem lanesKept_ruleDurationEnd {ending : EndOf} (row : execRuleDurationEnd ending s = .next t) : LanesKept s t :=
  lanesKept_whenPossible (.of_moves (moves_resetAmid s trivial ending.reset _ fun _ _ s =>
    moves_endActivation s ending.rule)) row

theorem lanesKept_presenceChange {wait : Nat} {l : LaneId} {present : Bool}
    (row : execPresenceChange wait l present s = .next t) : LanesKept s t := by
  cases row
  have sensed (u : State) (same : LanesKept s u) :
      LanesKept s (u.modLane l fun x => { x with port := { x.port with present := present } }) :=
    same.trans (.of_modLane u l _ fun _ => fits_congr rfl rfl rfl rfl rfl)
  dsimp only
  split
  · exact sensed _ (.refl s)
  · exact sensed _ (.of_same rfl)

theorem lanesKept_hardReset {powerOn : Bool} (row : execHardReset powerOn s = .next t) : LanesKept s t := by
  cases row
  refine ⟨fun l _ => ?_⟩
  have reset : (State.hardReset (fun l => (s.lane l).port.present) (memoryAfterReset powerOn s) (s.freeCount + 1)
      s.pending).lane l = Lane.reset (s.lane l).port.present := Vector.getElem_ofFn _
  rw [reset]
  exact ⟨Nat.zero_le _, Nat.zero_le _, Nat.zero_le _, Nat.zero_le _⟩

theorem lanesKept_fetchComplete {l : LaneId} (row : execFetchComplete l s = .next t) : LanesKept s t := by
  unfold execFetchComplete at row
  split at row
  · exact lanesKept_whenPossible
      ((lanesKept_completeAccess s _ _).trans (.of_setLane _ l (fits_placeFetch _))) row
  · cases row

theorem lanesKept_voidedFetchComplete {l : LaneId} (row : execVoidedFetchComplete l s = .next t) :
    LanesKept s t := by
  unfold execVoidedFetchComplete at row
  split at row
  · exact lanesKept_whenPossible ((lanesKept_completeAccess s _ _).trans (.of_setLane _ l fits_dropFetch)) row
  · cases row

theorem lanesKept_fillWriteComplete (row : execFillWriteComplete s = .next t) : LanesKept s t := by
  unfold execFillWriteComplete at row
  split at row <;> cases row
  exact (lanesKept_settle s).trans <| (lanesKept_completeAccess _ _ _).trans (lanesKept_fillCompleted _)

theorem lanesKept_placeReply (s : State) (r : Reply) : LanesKept s (placeReply s r) :=
  .of_moves (anew := True) (moves_placeReply s r)

theorem lanesKept_traceWriteComplete (row : execTraceWriteComplete s = .next t) : LanesKept s t := by
  unfold execTraceWriteComplete at row
  split at row
  · next g a _ _ =>
    have written := (lanesKept_settle s).trans <|
      (lanesKept_completeAccess (settle s) g a).trans (lanesKept_reportWritten _ a.request.addresses)
    dsimp only at row
    split at row <;> cases row
    · exact written.trans (lanesKept_placeReply _ _)
    · exact written.trans (.of_same rfl)
  · cases row

theorem lanesKept_traceReadComplete (row : execTraceReadComplete s = .next t) : LanesKept s t := by
  unfold execTraceReadComplete at row
  split at row
  · next p _ g a _ _ _ =>
    have reported (bad : List Nat) := (lanesKept_settle s).trans <|
      (lanesKept_completeAccess (settle s) g a).trans <|
        lanesKept_foldl (fun s a => report s (.traceRead p.tag a)) (fun s _ => lanesKept_report s _) bad _
    dsimp only at row
    split at row <;> cases row
    · exact (reported _).trans (lanesKept_placeReply _ _)
    · exact (reported _).trans (.of_same rfl)
  · cases row

theorem lanesKept_blockedReplyPlaced (row : execBlockedReplyPlaced s = .next t) : LanesKept s t := by
  unfold execBlockedReplyPlaced at row
  split at row
  · exact lanesKept_whenPossible (lanesKept_placeReply s _) row
  · cases row
  · cases row

theorem lanesKept_tmcGrant (row : execTmcGrant s = .next t) : LanesKept s t := by
  unfold execTmcGrant at row
  split at row <;> cases row
  exact .of_same rfl

theorem lanesKept_groupBusyEnd {g : GroupId} (row : execGroupBusyEnd g s = .next t) : LanesKept s t := by
  unfold execGroupBusyEnd at row
  split at row <;> cases row
  exact .of_same rfl

theorem lanesKept_refreshEnd {g : GroupId} (row : execRefreshEnd g s = .next t) : LanesKept s t := by
  unfold execRefreshEnd at row
  split at row <;> cases row
  exact .of_same rfl

end Events

/-! ## Every command -/

theorem lanesKept_exec {c : Instr} {s t : State} (row : exec c s = .next t) : LanesKept s t := by
  cases c with
  | hardReset powerOn => exact lanesKept_hardReset row
  | resetNRisingEdge =>
    have edge := LanesKept.of_mapLanes { s with now := 0, resetLow := false } (f := fun _ x => x.risingEdge)
      fun _ _ => fits_congr rfl rfl rfl rfl rfl
    exact lanesKept_whenPossible (edge.after (.of_same rfl)) row
  | cycleMark wait number order =>
    exact lanesKept_fromOutside (fun s => lanesKept_cycleMark s (fun _ => .refl) number order) row
  | sample wait data => exact lanesKept_fromOutside (fun s => lanesKept_takeSampleWord s data) row
  | header wait data =>
    exact lanesKept_fromOutside (fun s => (lanesKept_settle s).trans (lanesKept_takeHeader _ data)) row
  | payload wait data => exact lanesKept_fromOutside (fun s => lanesKept_takePayload s data) row
  | linkWordBad wait =>
    exact lanesKept_fromOutside (fun s => (lanesKept_settle s).trans (lanesKept_takeBadWord _)) row
  | silenceTimerExpiry =>
    exact lanesKept_whenPossible
      ((lanesKept_linkLost _).after <| (lanesKept_reach _ _).after (lanesKept_settle s)) row
  | presenceChange wait l present => exact lanesKept_presenceChange row
  | storeCorruption wait item =>
    exact lanesKept_fromOutside (fun s => (lanesKept_settle s).trans (lanesKept_corrupt _ item)) row
  | timedTick tick => exact lanesKept_timedTickRow row
  | ruleDelayEnd r => exact lanesKept_whenPossible (effect := s.modRule r endDelay) (.of_same rfl) row
  | ruleDurationEnd ending => exact lanesKept_ruleDurationEnd row
  | portTransferComplete l => exact lanesKept_portTransferComplete row
  | fetchIssue fetch => exact lanesKept_fetchIssue row
  | tmcGrant => exact lanesKept_tmcGrant row
  | fetchComplete l => exact lanesKept_fetchComplete row
  | voidedFetchComplete l => exact lanesKept_voidedFetchComplete row
  | fillWriteComplete => exact lanesKept_fillWriteComplete row
  | traceWriteComplete => exact lanesKept_traceWriteComplete row
  | traceReadComplete => exact lanesKept_traceReadComplete row
  | groupBusyEnd g => exact lanesKept_groupBusyEnd row
  | refreshDue g => exact lanesKept_whenPossible ((lanesKept_setGroup _ g _).after (lanesKept_reach s _)) row
  | refreshStart g => exact lanesKept_whenPossible (lanesKept_setGroup s g _) row
  | refreshEnd g => exact lanesKept_refreshEnd row
  | returnWordSent => exact lanesKept_returnWordSent row
  | blockedReplyPlaced => exact lanesKept_blockedReplyPlaced row
  | identify => exact lanesKept_unchanged (reply := fun _ => .reply .done identifyWords) row
  | status => exact lanesKept_unchanged (reply := fun s => .reply .done (statusWords s)) row
  | reset =>
    exact lanesKept_takeRecord (run := fun _ s => (softReset s, .reply .done []))
      (fun _ s => .of_moves (moves_softReset s trivial)) row
  | setReporting => exact lanesKept_takeRecord (fun p s => lanesKept_runSetReporting s p) row
  | configLane => exact lanesKept_takeRecord (fun p s => lanesKept_runConfigLane s p) row
  | setPlaylist => exact lanesKept_takeRecord (fun p s => lanesKept_runSetPlaylist s p) row
  | startLanes => exact lanesKept_takeRecord (fun p s => lanesKept_runStartLanes s p) row
  | stopLanesNow =>
    exact lanesKept_takeRecord
      (fun p s => lanesKept_ite_refused _ (lanesKept_runStop s p lanesKept_stopLaneNow)) row
  | stopLanesDrain =>
    exact lanesKept_takeRecord
      (fun p s => lanesKept_ite_refused _ (lanesKept_runStop s p lanesKept_stopLaneDrain)) row
  | resetLane => exact lanesKept_takeRecord (fun p s => lanesKept_runResetLane s p) row
  | readLane => exact lanesKept_takeRecord_same (fun p s => lanes_runReadLane s p) row
  | loadCurve among => exact lanesKept_takeRecord (fun p s => lanesKept_runLoadCurve s p among) row
  | defineBlock => exact lanesKept_takeRecord (fun p s => lanesKept_runDefineBlock s p) row
  | deleteBlock => exact lanesKept_takeRecord_same (fun p s => lanes_runDeleteBlock s p) row
  | readDirectory => exact lanesKept_takeRecord_same (fun p s => lanes_runReadDirectory s p) row
  | writeTraceStart =>
    exact lanesKept_takeRecord (fun p s => lanesKept_ite_refused _ (lanesKept_runWriteStart s p)) row
  | writeTraceContinue =>
    exact lanesKept_takeRecord (fun p s => lanesKept_ite_refused _ (lanesKept_runWriteContinue s p)) row
  | readTrace => exact lanesKept_takeRecord_same (fun p s => lanes_runReadTrace s p) row
  | loadRule => exact lanesKept_takeRecord_same (fun p s => lanes_runLoadRule s p) row
  | clearRule => exact lanesKept_takeRecord_same (fun p s => lanes_runClearRule s p) row
  | armRule => exact lanesKept_takeRecord (fun p s => lanesKept_ite_refused _ (lanesKept_runArmRule s p)) row
  | armGroup => exact lanesKept_takeRecord (fun p s => lanesKept_ite_refused _ (lanesKept_runArmGroup s p)) row
  | disarmRule =>
    exact lanesKept_takeRecord
      (fun p s => lanesKept_ite_refused _ (.of_moves (anew := True) (moves_runDisarmRule p s))) row
  | disarmGroup =>
    exact lanesKept_takeRecord
      (fun p s => lanesKept_ite_refused _ (.of_moves (anew := True) (moves_runDisarmGroup p s))) row
  | fire => exact lanesKept_takeRecord (fun p s => lanesKept_runFire s p) row
  | readRule => exact lanesKept_takeRecord_same (fun p s => lanes_runReadRule s p) row
  | readLatch => exact lanesKept_unchanged (reply := fun s => .reply .done (latchPayload s.latch)) row
  | clearLatch =>
    exact lanesKept_takeRecord_same
      (run := fun _ s => ({ s with latch := .reset }, .reply .done (latchPayload s.latch))) (fun _ _ => rfl) row
  | unknownCommandRecord => exact lanesKept_unchanged (reply := fun _ => refusedWith .unknownCommand) row

/-- Settles O4: a step idles or takes the front command, and every command keeps every lane within its bounds. -/
theorem lanesKeepWithinTheirBounds : Obligations.LanesKeepWithinTheirBounds := by
  intro s t fit stepped
  unfold step at stepped
  split at stepped
  · cases stepped
    exact fit
  · exact fun l => (lanesKept_exec stepped).lane l (fit l)

/-- Settles O5: after reset every queue and every lane is empty. -/
theorem resetMeetsTheInvariants : Obligations.ResetMeetsTheInvariants := by
  refine ⟨rfl, ⟨Nat.zero_le _, Nat.zero_le _, Nat.zero_le _, Nat.zero_le _⟩, fun l => ?_⟩
  have reset : State.reset.lane l = Lane.afterReset false := Vector.getElem_replicate _
  rw [reset]
  exact ⟨Nat.zero_le _, Nat.zero_le _, Nat.zero_le _, Nat.zero_le _⟩

end Sys2Proof.LaneBounds
end

section
/-! PROOFS. The hand-over of a word to a lane port, and a SAMPLE on its way to the tick that presents it (R18, R19, R21,
R22, R154, R163). -/

namespace Sys2Proof.HandOvers

open Sys2Proof.Machine

/-! ## TAP words (R163) -/

theorem tapWord_eq (l : LaneId) (line : LineState) (held faulted : Bool) (word : OutCode) :
    tapWord l line held faulted word = BitVec.ofNat 32 (l.val * 2 ^ 27 + lineCode line * 2 ^ 25 + held.toNat * 2 ^ 24 +
      faulted.toNat * 2 ^ 23 + word.toNat) := by
  have sum : FaultRules.fieldSum [(l.val, 27), (lineCode line, 25), (flagBit held, 24), (flagBit faulted, 23),
      (word.toNat, 0)] = l.val * 2 ^ 27 + lineCode line * 2 ^ 25 + held.toNat * 2 ^ 24 + faulted.toNat * 2 ^ 23 +
        word.toNat := by
    simp only [FaultRules.fieldSum_cons, FaultRules.fieldSum_nil, Conversion.flagBit_eq_toNat]
    omega
  exact congrArg (BitVec.ofNat 32) sum

/-- What becomes of the Return Sender where lane `l` hands a word and its tap offers `data`. -/
def tapped (r : ReturnSender) (l : LaneId) (data : Word) : ReturnSender :=
  if l ∉ r.tapLanes then r
  else if r.taps.length < 32 then { r with taps := r.taps ++ [data] }
  else { r with tapsDropped := countUp r.tapsDropped }

theorem offerTap_eq (s : State) (data : Word) : offerTap s data = { s with
    ret := if s.ret.taps.length < 32 then { s.ret with taps := s.ret.taps ++ [data] }
      else { s.ret with tapsDropped := countUp s.ret.tapsDropped } } := by
  by_cases room : s.ret.taps.length < 32
  · rw [if_pos room]
    exact if_pos room
  · rw [if_neg room]
    exact if_neg room

/-! ## The hand-over (R21, R22) -/

section HandOver

variable (s : State) (l : LaneId) (h : HandOver)

/-- A hand-over is the lane's own step and what its tap offers. -/
theorem handOver_eq : handOver s l h = { s.modLane l (fun x => x.handed s.now h.word) with
    ret := tapped s.ret l (tapWord l h.word.line h.held h.faulted h.word.word) } := by
  unfold handOver tapped
  by_cases tap : l ∈ s.ret.tapLanes
  · have listed : s.ret.tapLanes.contains l = true := List.contains_iff_mem.2 tap
    simp only [State.modLane_ret, listed, if_true, offerTap_eq, tap, not_true_eq_false, if_false]
    rfl
  · have unlisted : s.ret.tapLanes.contains l = false := by simpa using tap
    simp only [State.modLane_ret, unlisted, tap, not_false_eq_true, if_true]
    rfl

theorem lane_handOver_self : (handOver s l h).lane l = (s.lane l).handed s.now h.word := by
  rw [handOver_eq]
  exact State.lane_modLane_same s l fun x => x.handed s.now h.word

theorem lane_handOver_other {k : LaneId} (other : k ≠ l) : (handOver s l h).lane k = s.lane k := by
  rw [handOver_eq]
  exact (State.lane_modLane s l k fun x => x.handed s.now h.word).trans (if_neg (Ne.symm other))

theorem handOver_ret :
    (handOver s l h).ret = tapped s.ret l (tapWord l h.word.line h.held h.faulted h.word.word) := by
  rw [handOver_eq]

end HandOver

section Handed

variable {x : Lane} (now : Nat) (w : PortWord)

/-- The lane with its last-sent word, before the port is looked at. -/
def sentBy (x : Lane) (w : PortWord) : Lane :=
  { x with lastWord := w.word, lastLine := w.line, sentSinceStart := true }

theorem handed_idle (idle : x.port.transfer = none) :
    x.handed now w = { sentBy x w with port := moveToTransfer now x.config x.port w } := by
  simp [Lane.handed, sentBy, idle]

theorem handed_waits (busy : x.port.transfer ≠ none) (free : x.port.pending = none) :
    x.handed now w = { sentBy x w with port := { x.port with pending := some w } } := by
  obtain ⟨t, transfer⟩ := Option.ne_none_iff_exists'.1 busy
  simp [Lane.handed, sentBy, transfer, free]

theorem handed_supersedes (busy : x.port.transfer ≠ none) (held : x.port.pending ≠ none) :
    x.handed now w = { sentBy x w with
      port := { x.port with pending := some w }
      counters := { x.counters with portSuperseded := countUp x.counters.portSuperseded } } := by
  obtain ⟨t, transfer⟩ := Option.ne_none_iff_exists'.1 busy
  obtain ⟨v, pending⟩ := Option.ne_none_iff_exists'.1 held
  simp [Lane.handed, sentBy, transfer, pending]

end Handed

/-- Settles O22, by the state of the port. -/
theorem handOverTakesThePort : Obligations.HandOverTakesThePort := by
  intro s l w held faulted
  refine ⟨fun idle => ?_, fun busy free => ?_, fun busy waits => ?_,
    fun k other => lane_handOver_other s l _ other, ?_⟩
  · rw [lane_handOver_self, handed_idle _ _ idle]
    rfl
  · rw [lane_handOver_self, handed_waits _ _ busy free]
    rfl
  · rw [lane_handOver_self, handed_supersedes _ _ busy waits]
    rfl
  · rw [← tapWord_eq, handOver_eq]
    rfl

/-! ## SAMPLE (R18, R154) -/

theorem takesTicks_iff (x : Lane) : x.takesTicks = true ↔
    x.state = .running ∨ x.state = .draining ∨ (x.state = .halted ∧ x.config.fallback = .live) := by
  unfold Lane.takesTicks
  cases x.state <;> simp

theorem field_bit (w : Word) (n : Nat) : decide (field w n 1 = 1) = w.getLsbD n := by
  simp [field, bitsAt, BitVec.getLsbD, Nat.testBit_eq_decide_div_mod_eq]

/-- What a SAMPLE makes of the lane it names. -/
theorem takeSample_eq (data : Word) (x : Lane) :
    x.takeSample (signedField data) (field data 25 1 = 1) (field data 24 1 = 1) = { x with
      live :=
        { value := if data.getLsbD 24 then x.live.value else (data.setWidth 24).toInt
          fresh := true
          mark := x.live.mark || data.getLsbD 25 }
      counters := { x.counters with
        superseded :=
          if x.live.fresh = true ∧ (x.state = .running ∨ x.state = .draining ∨
              (x.state = .halted ∧ x.config.fallback = .live)) then
            min (x.counters.superseded + 1) 4294967295
          else x.counters.superseded } } := by
  have counts : (x.live.fresh && x.takesTicks) = true ↔ x.live.fresh = true ∧ (x.state = .running ∨
      x.state = .draining ∨ (x.state = .halted ∧ x.config.fallback = .live)) := by
    rw [Bool.and_eq_true, takesTicks_iff]
  simp only [Lane.takeSample, field_bit, FaultRules.signedField_eq]
  by_cases counted : (x.live.fresh && x.takesTicks) = true
  · rw [if_pos counted, if_pos (counts.1 counted)]
    rfl
  · rw [if_neg counted, if_neg (mt counts.2 counted)]

/-- Settles O12: the lane number of the word decides where it goes. -/
theorem sampleReachesItsLane : Obligations.SampleReachesItsLane := by
  have named (data : Word) : field data 26 6 = data.toNat / 2 ^ 26 := Playlist.field_top data rfl
  refine ⟨fun wait data s high => ⟨fun l lane => ?_, fun above => ?_⟩, fun s l live unfrozen => ?_⟩
  · have row : exec (.sample wait data) s = .next (takeSampleWord (s.pass wait) data) := 
      fromOutside_high wait (fun s => takeSampleWord s data) high
    rw [row, takeSampleWord, named, toFin?_val l lane]
    exact congrArg (fun f => Host.Outcome.next ((s.pass wait).modLane l f)) (funext (takeSample_eq data))
  · have row : exec (.sample wait data) s = .next (takeSampleWord (s.pass wait) data) := 
      fromOutside_high wait (fun s => takeSampleWord s data) high
    rw [row, takeSampleWord, named, toFin?_none above]
    rfl
  · have none : freezers s l = [] := List.filter_eq_nil_iff.2 fun r mem => by simpa using unfrozen r mem
    simp only [sourceStage, none, live]
    rfl

end Sys2Proof.HandOvers
end

section
/-! PROOFS. The two edges of RESET_N and a power-on (R13, R26, R33, R150, R159, R181, R183). -/

namespace Sys2Proof.ResetPin

open Sys2Proof.Machine

/-! ## The hard-reset state -/

section HardReset

variable (present : LaneId → Bool) (mem : Memory) (freeCount : Nat) (pending : List Instr)

theorem lane_hardReset (l : LaneId) :
    (State.hardReset present mem freeCount pending).lane l = Lane.reset (present l) := by
  simp [State.lane, State.hardReset]

theorem rule_hardReset (r : RuleId) : (State.hardReset present mem freeCount pending).rule r = .vacant := by
  simp [State.rule, State.hardReset]

theorem block_hardReset (b : BlockId) : (State.hardReset present mem freeCount pending).block b = .vacant := by
  simp [State.block, State.hardReset, Directory.reset]

theorem group_hardReset (g : GroupId) : (State.hardReset present mem freeCount pending).group g = .reset := by
  simp [State.group, State.hardReset, Tmc.reset]

theorem point_hardReset (c : CurveId) (k : PointId) : (State.hardReset present mem freeCount pending).point c k =
    ⟨BitVec.ofNat 20 (min (k.val * 16384) 1048575), true⟩ := by
  simp [State.point, State.hardReset, resetCurve]

end HardReset

theorem openRow_reset (b : BankId) : BankGroup.reset.openRows[b.val] = none := by
  simp [BankGroup.reset]

/-! ## Trace memory through a hard reset (R26, R33) -/

theorem mem_abandonedAddresses {s : State} {a : Nat} (h : a ∈ abandonedAddresses s) :
    ∃ g x, (s.group g).access = some x ∧ x.request.data.isSome ∧ a ∈ x.request.addresses := by
  obtain ⟨g, -, among⟩ := List.mem_flatMap.1 h
  cases access : (s.group g).access with
  | none => simp [access] at among
  | some x =>
    cases data : x.request.data with
    | none => simp [access, data] at among
    | some ws => exact ⟨g, x, access, by rw [data]; rfl, by simpa [access, data] using among⟩

theorem read_memoryAfterReset {s : State} {a : Nat} (kept : a ∉ abandonedAddresses s) :
    (memoryAfterReset false s).read a = s.mem.read a := by
  refine Memory.read_writeAll_other _ _ fun written => kept ?_
  simpa using written

/-- Settles O9: the hard-reset state, block by block, and the words that no abandoned write touches. -/
theorem hardResetState : Obligations.HardResetState := by
  intro powerOn s
  refine ⟨_, rfl, rfl, fun l => lane_hardReset .., fun r => rule_hardReset .., fun b => block_hardReset .., rfl, rfl,
    rfl, fun c k => point_hardReset .., rfl, fun g => ?_, rfl, rfl, rfl, rfl, rfl, fun warm a outside => ?_⟩
  · rw [group_hardReset]
    exact ⟨rfl, rfl, rfl, rfl, rfl, openRow_reset⟩
  · subst warm
    refine read_memoryAfterReset fun abandoned => ?_
    obtain ⟨g, x, inFlight, data, among⟩ := mem_abandonedAddresses abandoned
    exact outside g x inFlight data among

/-! ## The rising edge (R13, R183) -/

theorem mapLanes_eq (s : State) (f : LaneId → Lane → Lane) :
    s.mapLanes f = { s with lanes := Vector.ofFn fun l => f l (s.lane l) } := by
  rw [State.mapLanes]

theorem mapLanes_eq_with (s : State) (f : LaneId → Lane → Lane) :
    s.mapLanes f = { s with lanes := (s.mapLanes f).lanes } := by
  rw [mapLanes_eq]

/-- The rising edge takes a part whose RESET_N is low. -/
theorem exec_risingEdge {s : State} (low : s.resetLow = true) : exec .resetNRisingEdge s =
    .next ({ s with now := 0, resetLow := false }.mapLanes fun _ x => x.risingEdge) :=
  whenPossible_of _ _ low

/-- The rising edge of the hard-reset state. -/
theorem risingEdge_hardReset (present : LaneId → Bool) (mem : Memory) (freeCount : Nat) (pending : List Instr) :
    ({ State.hardReset present mem freeCount pending with now := 0, resetLow := false }.mapLanes
        fun _ x => x.risingEdge) =
      { State.reset with
        lanes := Vector.ofFn fun l => Lane.afterReset (present l)
        mem := mem
        freeCount := freeCount
        pending := pending } := by
  rw [mapLanes_eq]
  simp only [State.lane, State.hardReset, State.reset, Vector.getElem_ofFn]
  rfl

/-- Settles O10: the edge itself, the edge after a power-on, and the events that RESET_N holds off. -/
theorem risingEdgeStartsThePart : Obligations.RisingEdgeStartsThePart := by
  refine ⟨fun s low => ?_, fun s t reset => ?_, fun s wait data low => ?_⟩
  · refine ⟨_, exec_risingEdge low, ?_, ?_, fun l => ?_, mapLanes_eq_with _ _⟩
    · rw [State.mapLanes_now]
    · rw [State.mapLanes_resetLow]
    · rw [State.lane_mapLanes]
      rfl
  · cases reset
    rw [exec_risingEdge rfl, risingEdge_hardReset]
    rfl
  · exact ⟨fun order => fromOutside_low wait (cycleMark (fun _ s => s) data order) low,
      fromOutside_low wait (fun s => takeSampleWord s data) low,
      fromOutside_low wait (fun s => takeHeader (settle s) data) low,
      fromOutside_low wait (fun s => takePayload s data) low, fromOutside_low wait (fun s => takeBadWord (settle s)) low,
      fun item => fromOutside_low wait (fun s => corrupt (settle s) item) low⟩

end Sys2Proof.ResetPin
end

section
/-! PROOFS. Configuration records in the CONFIG_LANE layout, and CONFIG_LANE (R1 to R3, R190; log 17). -/

namespace Sys2Proof.LaneConfiguration

open Sys2Proof.Machine

/-! ## The codes of a record (R190) -/

/-- The value of a SOURCE code. -/
def sourceNamed (n : Nat) : Source := if n = 0 then .live else if n = 1 then .replay else .constant

/-- The value of a FALLBACK code. -/
def fallbackNamed (n : Nat) : Fallback := if n = 0 then .hold else if n = 1 then .rest else .live

/-- The value of a WORD_LENGTH. -/
def lengthNamed (n : Nat) : WordLength :=
  if n = 10 then .w10 else if n = 12 then .w12 else if n = 14 then .w14 else if n = 16 then .w16 else .w20

/-- The value of a CURVE code. -/
def curveNamed (n : Nat) : Option CurveId := if n = 31 then none else some (Fin.ofNat 16 n)

section Codes

variable {n : Nat}

theorem sourceOf_none (high : n = 3) : sourceOf n = none := by rw [high]; rfl

theorem sourceOf_some (bound : n < 4) (good : n ≠ 3) : sourceOf n = some (sourceNamed n) := by
  have low : n < 3 := by omega
  interval_cases n <;> rfl

theorem fallbackOf_none (high : n = 3) : fallbackOf n = none := by rw [high]; rfl

theorem fallbackOf_some (bound : n < 4) (good : n ≠ 3) : fallbackOf n = some (fallbackNamed n) := by
  have low : n < 3 := by omega
  interval_cases n <;> rfl

theorem wordLengthOf_none (bad : n ∉ [10, 12, 14, 16, 20]) : wordLengthOf n = none := by
  simp only [List.mem_cons, List.not_mem_nil, or_false, not_or] at bad
  unfold wordLengthOf
  split <;> simp_all

theorem wordLengthOf_some (good : n ∈ [10, 12, 14, 16, 20]) : wordLengthOf n = some (lengthNamed n) := by
  simp only [List.mem_cons, List.not_mem_nil, or_false] at good
  rcases good with rfl | rfl | rfl | rfl | rfl <;> rfl

theorem bits_lengthNamed (good : n ∈ [10, 12, 14, 16, 20]) : (lengthNamed n).bits = n := by
  simp only [List.mem_cons, List.not_mem_nil, or_false] at good
  rcases good with rfl | rfl | rfl | rfl | rfl <;> rfl

theorem portBits_frame (good : n ∈ [10, 12, 14, 16, 20]) :
    portBits .frame (lengthNamed n) = if n ≤ 12 then 24 else 32 := by
  simp only [List.mem_cons, List.not_mem_nil, or_false] at good
  rcases good with rfl | rfl | rfl | rfl | rfl <;> rfl

theorem curveOf_none (bad : 16 ≤ n ∧ n ≠ 31) : curveOf n = none := by
  rw [curveOf, if_neg bad.2, toFin?_none bad.1]

theorem curveOf_some (good : ¬(16 ≤ n ∧ n ≠ 31)) : curveOf n = some (curveNamed n) := by
  by_cases unused : n = 31
  · rw [curveOf, curveNamed, if_pos unused, if_pos unused]
  · have low : n < 16 := by omega
    have index : n = (Fin.ofNat 16 n).val := (Nat.mod_eq_of_lt low).symm
    rw [curveOf, curveNamed, if_neg unused, if_neg unused, toFin?_val _ index]

theorem val_curveNamed (good : ¬(16 ≤ n ∧ n ≠ 31)) :
    (curveNamed n).map Fin.val = if n = 31 then none else some n := by
  unfold curveNamed
  by_cases unused : n = 31
  · rw [if_pos unused, if_pos unused]
    rfl
  · rw [if_neg unused, if_neg unused]
    exact congrArg some (Nat.mod_eq_of_lt (by omega))

end Codes

theorem portBits_le (kind : PortKind) (len : WordLength) : portBits kind len ≤ 32 := by
  cases kind <;> cases len <;> decide

/-! ## DIVISOR (R3) -/

section Divisor

variable {divisor time : Nat}

theorem divisorFor_le (bound : divisor ≤ 65535) (short : time ≤ 6553400) : divisorFor divisor time ≤ 65535 := by
  unfold divisorFor
  split <;> omega

theorem le_divisorFor : divisor ≤ divisorFor divisor time := by
  unfold divisorFor
  split <;> omega

theorem time_lt_divisorFor : time < divisorFor divisor time * 100 := by
  unfold divisorFor
  split <;> omega

theorem divisorFor_self (long : time < divisor * 100) : divisorFor divisor time = divisor :=
  if_neg (Nat.not_le.2 long)

end Divisor

/-- A word time of the longest word at the slowest divider. -/
theorem wordTime_le (kind : PortKind) (len : WordLength) {divider : Nat} (bound : divider ≤ 255) :
    wordTime kind len divider ≤ 174080 := by
  calc wordTime kind len divider ≤ 34 * (2 * (255 + 1) * 10) := by
        refine Nat.mul_le_mul (Nat.add_le_add_right (portBits_le kind len) 2) ?_
        unfold bitPeriodOf
        omega
    _ = 174080 := by norm_num

/-! ## The record that a payload holds (R2, R3) -/

section Payload

variable (p : List Word)

/-- The word length as sent. -/
def lengthCode : Nat := field (param p 3) 3 5

/-- The curve as sent. -/
def curveCode : Nat := field (param p 3) 13 5

/-- A payload with an undefined value. -/
def BadConfig : Prop :=
  field (param p 3) 0 2 = 3 ∨ field (param p 3) 10 2 = 3 ∨ lengthCode p ∉ [10, 12, 14, 16, 20] ∨
    (16 ≤ curveCode p ∧ curveCode p ≠ 31)

/-- The port's kind. -/
def takenKind : PortKind := if field (param p 3) 9 1 = 0 then .level else .frame

/-- The record as CONFIG_LANE takes it. -/
def takenConfig : LaneConfig where
  source := sourceNamed (field (param p 3) 0 2)
  constantCode := signedField (param p 0)
  timing := if field (param p 3) 2 1 = 0 then .timed else .cycle
  divisor := divisorFor (max (field (param p 1) 0 16) 10)
    (wordTime (takenKind p) (lengthNamed (lengthCode p)) (min (field (param p 2) 20 10) 255))
  cycleDivider := max 1 (min (field (param p 3) 18 7) 64)
  wordLength := lengthNamed (lengthCode p)
  bitOrder := if field (param p 3) 8 1 = 0 then .msbFirst else .lsbFirst
  portKind := takenKind p
  portDivider := min (field (param p 2) 20 10) 255
  restWord := BitVec.ofNat 20 (min (field (param p 2) 0 20) (2 ^ (lengthNamed (lengthCode p)).bits - 1))
  fallback := fallbackNamed (field (param p 3) 10 2)
  curve := curveNamed (curveCode p)
  underrun := if field (param p 3) 12 1 = 0 then .slip else .keepPace
  gateSeed := BitVec.ofNat 16 (if field (param p 1) 16 16 = 0 then 1 else field (param p 1) 16 16)

theorem toNat_restWord : (takenConfig p).restWord.toNat =
    min (field (param p 2) 0 20) (2 ^ (lengthNamed (lengthCode p)).bits - 1) := by
  have bound : field (param p 2) 0 20 < 2 ^ 20 := Playlist.field_lt (param p 2) 0 20
  exact Nat.mod_eq_of_lt (Nat.lt_of_le_of_lt (Nat.min_le_left _ _) bound)

theorem toNat_gateSeed : (takenConfig p).gateSeed.toNat =
    if field (param p 1) 16 16 = 0 then 1 else field (param p 1) 16 16 := by
  have bound : field (param p 1) 16 16 < 2 ^ 16 := Playlist.field_lt (param p 1) 16 16
  refine Nat.mod_eq_of_lt ?_
  split <;> omega

/-- Whether a field is taken otherwise than it was sent. -/
def isAdjusted : Bool :=
  decide ((takenConfig p).divisor ≠ field (param p 1) 0 16 ∨ (takenConfig p).cycleDivider ≠ field (param p 3) 18 7 ∨
    (takenConfig p).portDivider ≠ field (param p 2) 20 10 ∨ (takenConfig p).restWord.toNat ≠ field (param p 2) 0 20)

variable {p}

theorem decodeConfig_none (bad : BadConfig p) : decodeConfig p = none := by
  rcases bad with source | fallback | length | curve
  · simp only [decodeConfig, sourceOf_none source]
  · simp only [decodeConfig, fallbackOf_none fallback]
    cases sourceOf (field (param p 3) 0 2) <;> rfl
  · have none := wordLengthOf_none length
    simp only [lengthCode] at none
    simp only [decodeConfig, none]
    cases sourceOf (field (param p 3) 0 2) <;> cases fallbackOf (field (param p 3) 10 2) <;> rfl
  · have none := curveOf_none curve
    simp only [curveCode] at none
    simp only [decodeConfig, none]
    split <;> simp_all

theorem decodeConfig_some (good : ¬BadConfig p) : decodeConfig p = some (takenConfig p, isAdjusted p) := by
  simp only [BadConfig, not_or, not_not] at good
  obtain ⟨source, fallback, length, curve⟩ := good
  have readSource := sourceOf_some (Playlist.field_lt (param p 3) 0 2) source
  have readFallback := fallbackOf_some (Playlist.field_lt (param p 3) 10 2) fallback
  have readLength := wordLengthOf_some length
  have readCurve := curveOf_some curve
  simp only [lengthCode] at readLength
  simp only [curveCode] at readCurve
  simp only [decodeConfig, readSource, readFallback, readLength, readCurve]
  have adjusts : (field (param p 2) 20 10 != (takenConfig p).portDivider ||
      field (param p 3) 18 7 != (takenConfig p).cycleDivider ||
      field (param p 2) 0 20 != min (field (param p 2) 0 20) (2 ^ (lengthNamed (lengthCode p)).bits - 1) ||
      field (param p 1) 0 16 != (takenConfig p).divisor) = isAdjusted p := by
    rw [← toNat_restWord, Bool.eq_iff_iff, isAdjusted, decide_eq_true_iff]
    simp only [Bool.or_eq_true, bne_iff_ne]
    tauto
  exact congrArg some (Prod.ext rfl adjusts)

theorem decodeConfig_eq_none_iff : decodeConfig p = none ↔ BadConfig p :=
  FaultRules.reading_eq_none_iff decodeConfig_none decodeConfig_some

theorem decodeConfig_eq_some_iff {c : LaneConfig} {adjusted : Bool} : decodeConfig p = some (c, adjusted) ↔
    ¬BadConfig p ∧ c = takenConfig p ∧ adjusted = isAdjusted p := by
  rw [FaultRules.reading_eq_some_iff decodeConfig_none decodeConfig_some, Prod.mk.injEq]

/-- A record that is taken is in range. -/
theorem valid_takenConfig (p : List Word) : (takenConfig p).valid := by
  have codes := FaultRules.signedField_codes (param p 0)
  have divider : (takenConfig p).portDivider ≤ 255 := Nat.min_le_right _ _
  have divisor : field (param p 1) 0 16 < 65536 := Playlist.field_lt (param p 1) 0 16
  have time : wordTime (takenKind p) (lengthNamed (lengthCode p)) (min (field (param p 2) 20 10) 255) ≤ 174080 :=
    wordTime_le _ _ divider
  refine ⟨codes.1, codes.2, (Nat.le_max_right _ _).trans le_divisorFor, divisorFor_le (by omega) (by omega),
    Nat.le_max_left _ _, max_le (by decide) (Nat.min_le_right _ _), divider, ?rest, ?seed, time_lt_divisorFor⟩
  case rest =>
    rw [toNat_restWord]
    have positive : 0 < 2 ^ (lengthNamed (lengthCode p)).bits := Nat.two_pow_pos _
    exact Nat.lt_of_le_of_lt (Nat.min_le_right _ _) (Nat.sub_lt positive Nat.one_pos)
  case seed =>
    intro zero
    have value := toNat_gateSeed p
    rw [zero] at value
    have none : (0 : BitVec 16).toNat = 0 := rfl
    split at value <;> omega

end Payload

/-! ## The layout (R190) -/

def timingCode : Timing → Nat
  | .timed => 0
  | .cycle => 1

def orderCode : BitOrder → Nat
  | .msbFirst => 0
  | .lsbFirst => 1

def kindCode : PortKind → Nat
  | .level => 0
  | .frame => 1

def underrunCode : Underrun → Nat
  | .slip => 0
  | .keepPace => 1

def sourceCode : Source → Nat
  | .live => 0
  | .replay => 1
  | .constant => 2

def fallbackCode : Fallback → Nat
  | .hold => 0
  | .rest => 1
  | .live => 2

def curveIdCode : Option CurveId → Nat
  | none => 31
  | some k => k.val

theorem sourceNamed_sourceCode (source : Source) : sourceNamed (sourceCode source) = source := by
  cases source <;> rfl

theorem fallbackNamed_fallbackCode (fallback : Fallback) : fallbackNamed (fallbackCode fallback) = fallback := by
  cases fallback <;> rfl

theorem lengthNamed_bits (len : WordLength) : lengthNamed len.bits = len := by cases len <;> rfl

theorem bits_mem (len : WordLength) : len.bits ∈ [10, 12, 14, 16, 20] := by cases len <;> decide

theorem curveIdCode_good (curve : Option CurveId) : ¬(16 ≤ curveIdCode curve ∧ curveIdCode curve ≠ 31) := by
  cases curve with
  | none => decide
  | some k => exact fun high => absurd k.isLt (Nat.not_lt.2 high.1)

theorem curveNamed_curveIdCode (curve : Option CurveId) : curveNamed (curveIdCode curve) = curve := by
  cases curve with
  | none => rfl
  | some k =>
    have used : k.val ≠ 31 := by omega
    rw [curveNamed, curveIdCode, if_neg used]
    exact congrArg some (Fin.ext (Nat.mod_eq_of_lt k.isLt))

section Layout

variable {c : LaneConfig}

/-- The second word of a record in the CONFIG_LANE layout. -/
theorem fields_secondWord (divisor : c.divisor ≤ 65535) :
    let w := param (encodeConfig c) 1
    field w 0 16 = c.divisor ∧ field w 16 16 = c.gateSeed.toNat := by
  have seed := c.gateSeed.isLt
  intro w
  have word : w = packWord [(c.divisor, 0), (c.gateSeed.toNat, 16)] := rfl
  simp only [word, field, bitsAt, FaultRules.toNat_packWord, FaultRules.fieldSum_cons, FaultRules.fieldSum_nil]
  omega

/-- The third word. -/
theorem fields_thirdWord (divider : c.portDivider ≤ 255) :
    let w := param (encodeConfig c) 2
    field w 0 20 = c.restWord.toNat ∧ field w 20 10 = c.portDivider := by
  have rest := c.restWord.isLt
  intro w
  have word : w = packWord [(c.restWord.toNat, 0), (c.portDivider, 20)] := rfl
  simp only [word, field, bitsAt, FaultRules.toNat_packWord, FaultRules.fieldSum_cons, FaultRules.fieldSum_nil]
  omega

/-- The fourth word. -/
theorem fields_fourthWord (cycle : c.cycleDivider ≤ 64) :
    let w := param (encodeConfig c) 3
    field w 0 2 = sourceCode c.source ∧ field w 2 1 = timingCode c.timing ∧
      field w 3 5 = c.wordLength.bits ∧ field w 8 1 = orderCode c.bitOrder ∧
      field w 9 1 = kindCode c.portKind ∧ field w 10 2 = fallbackCode c.fallback ∧
      field w 12 1 = underrunCode c.underrun ∧ field w 13 5 = curveIdCode c.curve ∧
      field w 18 7 = c.cycleDivider := by
  have source : sourceCode c.source < 4 := by cases c.source <;> decide
  have fallback : fallbackCode c.fallback < 4 := by cases c.fallback <;> decide
  have length : c.wordLength.bits < 32 := by cases c.wordLength <;> decide
  have curve : curveIdCode c.curve < 32 := by
    have good := curveIdCode_good c.curve
    omega
  have timing : timingCode c.timing < 2 := by cases c.timing <;> decide
  have order : orderCode c.bitOrder < 2 := by cases c.bitOrder <;> decide
  have kind : kindCode c.portKind < 2 := by cases c.portKind <;> decide
  have underrun : underrunCode c.underrun < 2 := by cases c.underrun <;> decide
  intro w
  have word : w = packWord [(sourceCode c.source, 0), (timingCode c.timing, 2), (c.wordLength.bits, 3),
      (orderCode c.bitOrder, 8), (kindCode c.portKind, 9), (fallbackCode c.fallback, 10),
      (underrunCode c.underrun, 12), (curveIdCode c.curve, 13), (c.cycleDivider, 18)] := rfl
  simp only [word, field, bitsAt, FaultRules.toNat_packWord, FaultRules.fieldSum_cons, FaultRules.fieldSum_nil]
  omega

theorem timing_of_code (timing : Timing) :
    (if timingCode timing = 0 then Timing.timed else .cycle) = timing := by cases timing <;> rfl

theorem order_of_code (order : BitOrder) :
    (if orderCode order = 0 then BitOrder.msbFirst else .lsbFirst) = order := by cases order <;> rfl

theorem kind_of_code (kind : PortKind) :
    (if kindCode kind = 0 then PortKind.level else .frame) = kind := by cases kind <;> rfl

theorem underrun_of_code (underrun : Underrun) :
    (if underrunCode underrun = 0 then Underrun.slip else .keepPace) = underrun := by
  cases underrun <;> rfl

theorem good_encodeConfig (cycle : c.cycleDivider ≤ 64) : ¬BadConfig (encodeConfig c) := by
  obtain ⟨source, -, length, -, -, fallback, -, curve, -⟩ := fields_fourthWord cycle
  simp only [BadConfig, lengthCode, curveCode, source, length, fallback, curve, not_or, not_not]
  refine ⟨?_, ?_, bits_mem _, curveIdCode_good _⟩
  · cases c.source <;> decide
  · cases c.fallback <;> decide

/-- A record in range is taken as it is. -/
theorem takenConfig_encodeConfig (valid : c.valid) : takenConfig (encodeConfig c) = c := by
  obtain ⟨lowCode, highCode, lowDivisor, highDivisor, lowCycle, highCycle, divider, rest, seed, period⟩ := valid
  obtain ⟨divisorIs, seedIs⟩ := fields_secondWord highDivisor
  obtain ⟨restIs, dividerIs⟩ := fields_thirdWord divider
  obtain ⟨sourceIs, timingIs, lengthIs, orderIs, kindIs, fallbackIs, underrunIs, curveIs, cycleIs⟩ :=
    fields_fourthWord highCycle
  have length : lengthNamed (lengthCode (encodeConfig c)) = c.wordLength := by
    rw [lengthCode, lengthIs, lengthNamed_bits]
  have kind : takenKind (encodeConfig c) = c.portKind := by rw [takenKind, kindIs, kind_of_code]
  have port : min c.portDivider 255 = c.portDivider := Nat.min_eq_left divider
  refine (LaneConfig.mk.injEq ..).mpr ⟨?source, FaultRules.signedField_signedWord lowCode highCode, ?timing, ?divisor,
    ?cycle, length, ?order, kind, ?port, ?rest, ?fallback, ?curve, ?underrun, ?seed⟩
  case source => rw [sourceIs, sourceNamed_sourceCode]
  case timing => rw [timingIs, timing_of_code]
  case divisor => rw [divisorIs, kind, length, dividerIs, port, Nat.max_eq_left lowDivisor, divisorFor_self period]
  case cycle => rw [cycleIs, Nat.min_eq_left highCycle, Nat.max_eq_right lowCycle]
  case order => rw [orderIs, order_of_code]
  case port => rw [dividerIs, port]
  case rest => rw [restIs, length, Nat.min_eq_left (Nat.le_sub_one_of_lt rest), BitVec.ofNat_toNat, BitVec.setWidth_eq]
  case fallback => rw [fallbackIs, fallbackNamed_fallbackCode]
  case curve => rw [curveCode, curveIs, curveNamed_curveIdCode]
  case underrun => rw [underrunIs, underrun_of_code]
  case seed =>
    have set : c.gateSeed.toNat ≠ 0 := fun zero => seed (BitVec.eq_of_toNat_eq zero)
    rw [seedIs, if_neg set, BitVec.ofNat_toNat, BitVec.setWidth_eq]

end Layout

/-- Settles O7: the codes are defined, each field is read back, and none is adjusted. -/
theorem configLayoutRoundTrip : Obligations.ConfigLayoutRoundTrip := by
  intro c valid
  have same := takenConfig_encodeConfig valid
  obtain ⟨-, -, -, highDivisor, -, highCycle, divider, -⟩ := valid
  refine decodeConfig_eq_some_iff.2 ⟨good_encodeConfig highCycle, same.symm, ?_⟩
  obtain ⟨divisorIs, -⟩ := fields_secondWord highDivisor
  obtain ⟨restIs, dividerIs⟩ := fields_thirdWord divider
  obtain ⟨-, -, -, -, -, -, -, -, cycleIs⟩ := fields_fourthWord highCycle
  rw [isAdjusted, same, divisorIs, cycleIs, dividerIs, restIs]
  simp

/-! ## CONFIG_LANE (R2, R3) -/

section Command

variable {p : Place} {u : State} {l : LaneId}

theorem runConfigLane_busy (index : p.index = l.val) (busy : (u.lane l).state ≠ .off) :
    runConfigLane p u = (u, .reply .laneBusy []) := by
  rw [runConfigLane, toFin?_val l index]
  exact if_neg busy

theorem runConfigLane_unread (index : p.index = l.val) (off : (u.lane l).state = .off)
    (none : decodeConfig p.payload = none) : runConfigLane p u = (u, .reply .badValue []) := by
  simp only [runConfigLane, toFin?_val l index, off, if_true, none]
  rfl

theorem runConfigLane_taken (index : p.index = l.val) (off : (u.lane l).state = .off) {c : LaneConfig}
    {adjusted : Bool} (read : decodeConfig p.payload = some (c, adjusted)) :
    runConfigLane p u = (u.setLane l { u.lane l with config := c },
      .reply (if adjusted then .adjusted else .done) (if adjusted then encodeConfig c else [])) := by
  rw [runConfigLane, toFin?_val l index]
  refine (if_pos off).trans ?_
  rw [read]
  cases adjusted <;> rfl

end Command

/-- Settles O42: what CONFIG_LANE reads, and what it stores. -/
theorem configurationIsTakenInRange : Obligations.ConfigurationIsTakenInRange := by
  refine ⟨fun payload => ?payload, fun s p rest headed carried => ?command⟩
  case payload =>
    intro bits source wordLength fallback curve divisor cycleDivider portDivider restWord seed
    refine ⟨decodeConfig_eq_none_iff, fun c adjusted read => ?_⟩
    obtain ⟨good, rfl, rfl⟩ := decodeConfig_eq_some_iff.1 read
    simp only [BadConfig, not_or, not_not] at good
    obtain ⟨-, -, length, curveGood⟩ := good
    intro sent time least
    have bitsAre := bits_lengthNamed length
    have port : portBits (takenKind payload) (lengthNamed (lengthCode payload)) = sent := by
      by_cases level : field (param payload 3) 9 1 = 0
      · exact (congrArg (portBits · _) (if_pos level)).trans (bitsAre.trans (if_pos level).symm)
      · exact (congrArg (portBits · _) (if_neg level)).trans ((portBits_frame length).trans (if_neg level).symm)
    have timeIs : wordTime (takenKind payload) (lengthNamed (lengthCode payload)) (min portDivider 255) = time := by
      rw [wordTime, port]
      rfl
    refine ⟨rfl, rfl, rfl, ?divisor, rfl, bitsAre, rfl, rfl, rfl, ?rest, rfl, val_curveNamed curveGood, rfl,
      toNat_gateSeed payload, decide_eq_true_iff⟩
    case divisor => exact congrArg (divisorFor least) timeIs
    case rest => rw [toNat_restWord, bitsAre]; rfl
  case command =>
    intro u answer
    have answers {v : State} {status : Status} {words : List Word}
        (run : runConfigLane p u = (v, .reply status words)) (cmd : v.cmd = u.cmd) :
        exec .configLane s = answer v status words :=
      takeRecord_reply headed carried (isCommand_carriedOut carried) run (congrArg _ cmd)
    refine ⟨fun high => answers (by rw [runConfigLane, toFin?_none high]; rfl) rfl, fun l index =>
      ⟨fun busy => answers (runConfigLane_busy index busy) rfl,
        fun off none => answers (runConfigLane_unread index off none) rfl, fun c adjusted off read => ⟨?_, ?_⟩⟩⟩
    · obtain ⟨-, rfl, -⟩ := decodeConfig_eq_some_iff.1 read
      exact valid_takenConfig p.payload
    · exact answers (runConfigLane_taken index off read) rfl

end Sys2Proof.LaneConfiguration
end

section
/-! PROOFS. READ_LANE, READ_RULE and READ_DIRECTORY (R24, R34, R112, R190; log 18, log 34, log 40). -/

namespace Sys2Proof.StateReads

open Sys2Proof.Machine

/-! ## Words -/

theorem numberWord_toNat {n : Nat} (w : BitVec n) : numberWord w.toNat = w.setWidth 32 := by
  rw [numberWord, BitVec.ofNat_toNat]

theorem packWord_eq (fields : List (Nat × Nat)) : packWord fields = numberWord (FaultRules.fieldSum fields) := rfl

/-! ## READ_LANE (R24) -/

theorem laneStatusWord_eq (x : Lane) :
    packWord [ (laneStateCode x.state, 0), (flagBit x.late, 3), (flagBit x.sentSinceStart, 4),
        (flagBit x.live.fresh, 5), (flagBit x.live.mark, 6), (flagBit x.prev.isSome, 7), (lineCode x.lastLine, 8),
        (x.history.length, 10) ] =
      numberWord (laneStateCode x.state + x.late.toNat * 2 ^ 3 + x.sentSinceStart.toNat * 2 ^ 4 +
        x.live.fresh.toNat * 2 ^ 5 + x.live.mark.toNat * 2 ^ 6 + x.prev.isSome.toNat * 2 ^ 7 +
        lineCode x.lastLine * 2 ^ 8 + x.history.length * 2 ^ 10) := by
  rw [packWord_eq]
  congr 1
  simp only [FaultRules.fieldSum_cons, FaultRules.fieldSum_nil, Conversion.flagBit_eq_toNat]
  omega

theorem queueWord_eq (x : Lane) : packWord [(x.fill, 0), (x.debt, 16)] = numberWord (x.fill + x.debt * 2 ^ 16) := by
  rw [packWord_eq]
  congr 1
  simp only [FaultRules.fieldSum_cons, FaultRules.fieldSum_nil]
  omega

/-- The words of a READ_LANE reply. -/
theorem readLaneWords_eq (x : Lane) : readLaneWords x =
    [ numberWord (laneStateCode x.state + x.late.toNat * 2 ^ 3 + x.sentSinceStart.toNat * 2 ^ 4 +
        x.live.fresh.toNat * 2 ^ 5 + x.live.mark.toNat * 2 ^ 6 + x.prev.isSome.toNat * 2 ^ 7 +
        lineCode x.lastLine * 2 ^ 8 + x.history.length * 2 ^ 10),
      x.startCycle ] ++ encodeConfig x.config ++
    [ numberWord x.counters.ticks, numberWord x.counters.stale, numberWord x.counters.superseded,
      numberWord x.counters.lostTicks, numberWord x.counters.underruns, numberWord x.counters.saturations,
      numberWord x.counters.portSuperseded, x.lastWord.setWidth 32, signedWord x.live.value,
      signedWord (x.prev.getD 0), numberWord (x.fill + x.debt * 2 ^ 16) ] ++
    (x.history.take 46).map fun w => w.setWidth 32 := by
  simp only [readLaneWords, laneStatusWord_eq, queueWord_eq, numberWord_toNat]

/-! ## READ_RULE (R112) -/

section RuleWords

variable {s : State} {i : RuleId}

/-- Only an ACTIVE rule whose LANE is a lane has a place word. -/
theorem placeWords_none (without : (s.rule i).state ≠ .active ∨ 24 ≤ (s.rule i).fields.lane) :
    placeWords s i = [] := by
  unfold placeWords
  rcases without with other | high
  · cases state : (s.rule i).state with
    | active => exact absurd state other
    | _ => simp only [state]
  · simp only [toFin?_none high]
    cases (s.rule i).state <;> rfl

theorem placeWords_some {l : LaneId} (active : (s.rule i).state = .active) (lane : (s.rule i).fields.lane = l.val) :
    placeWords s i = [numberWord ((s.lane l).chain.idxOf i)] := by
  simp only [placeWords, active, toFin?_val l lane]

end RuleWords

/-! ## READ_DIRECTORY (R34) -/

theorem blockWords_eq (b : Block) : blockWords b =
    [ numberWord (blockStateCode b.state + b.columns * 2 ^ 2 + b.inUse * 2 ^ 7), numberWord b.base,
      numberWord b.rows ] := by
  rw [blockWords, packWord_eq]
  simp only [FaultRules.fieldSum_cons, FaultRules.fieldSum_nil]
  congr 2
  omega

/-- The number of the fill at a place of the fill queue, or 0. -/
def idAt (q : List BlockId) (k : Nat) : Nat :=
  match q[k]? with
  | some b => b.val
  | none => 0

/-- The ids of at most four fills stand in the word, each at its place. -/
theorem fieldSum_fillIds (count : Nat) (q : List BlockId) :
    FaultRules.fieldSum ((count, 0) :: (q.map Fin.val).zip [3, 10, 17, 24]) =
      count + idAt q 0 * 2 ^ 3 + idAt q 1 * 2 ^ 10 + idAt q 2 * 2 ^ 17 + idAt q 3 * 2 ^ 24 := by
  match q with
  | [] => simp [FaultRules.fieldSum_cons, FaultRules.fieldSum_nil, idAt]
  | [a] => simp [FaultRules.fieldSum_cons, FaultRules.fieldSum_nil, idAt]
  | [a, b] => simp [FaultRules.fieldSum_cons, FaultRules.fieldSum_nil, idAt, Nat.add_assoc]
  | [a, b, c] => simp [FaultRules.fieldSum_cons, FaultRules.fieldSum_nil, idAt, Nat.add_assoc]
  | a :: b :: c :: d :: _ => simp [FaultRules.fieldSum_cons, FaultRules.fieldSum_nil, idAt, Nat.add_assoc]

theorem fillQueueWords_eq (s : State) : fillQueueWords s =
    numberWord (s.dir.fillQueue.length + idAt s.dir.fillQueue 0 * 2 ^ 3 + idAt s.dir.fillQueue 1 * 2 ^ 10 +
      idAt s.dir.fillQueue 2 * 2 ^ 17 + idAt s.dir.fillQueue 3 * 2 ^ 24) ::
    match s.dir.fillQueue with
    | [] => [0, 0]
    | b :: _ => [numberWord s.dir.fillDone, numberWord (((s.block b).rows * (s.block b).columns + 15) / 16)] := by
  rw [fillQueueWords, packWord_eq, fieldSum_fillIds]
  cases s.dir.fillQueue <;> rfl

section DirectoryRun

variable {p : Place} {u : State}

theorem runReadDirectory_count (low : p.index < 128) (bad : (param p.payload 0).toNat = 0 ∨ 16 < (param p.payload 0).toNat) :
    runReadDirectory p u = (u, .reply .badValue []) := by
  have out : ¬(1 ≤ (param p.payload 0).toNat ∧ (param p.payload 0).toNat ≤ 16) := by omega
  simp only [runReadDirectory, toFin?_val ⟨p.index, low⟩ rfl, out, if_false]
  rfl

theorem runReadDirectory_read (low : p.index < 128) (least : 1 ≤ (param p.payload 0).toNat)
    (most : (param p.payload 0).toNat ≤ 16) :
    runReadDirectory p u = (u,
      .reply (if 128 < p.index + (param p.payload 0).toNat then .adjusted else .done)
        ((((List.finRange 128).drop p.index).take (param p.payload 0).toNat).flatMap
          (fun b => blockWords (u.block b)) ++ fillQueueWords u)) := by
  have among : 1 ≤ (param p.payload 0).toNat ∧ (param p.payload 0).toNat ≤ 16 := ⟨least, most⟩
  have cut : ((blockNumbers.drop p.index).take (param p.payload 0).toNat).length < (param p.payload 0).toNat ↔
      128 < p.index + (param p.payload 0).toNat := by
    rw [List.length_take, List.length_drop, blockNumbers, List.length_finRange]
    omega
  simp only [runReadDirectory, toFin?_val ⟨p.index, low⟩ rfl, among, and_self, if_true, cut]
  rfl

end DirectoryRun

/-- Settles O38, a command at a time. -/
theorem readsReturnTheirState : Obligations.ReadsReturnTheirState := by
  intro s p rest headed u answer
  refine ⟨fun carried => ?lane, fun carried => ?rule, fun carried => ?directory⟩
  case lane =>
    have answers {status : Status} {words : List Word} (run : runReadLane p u = (u, .reply status words)) :
        exec .readLane s = answer status words :=
      takeRecord_reply headed carried (isCommand_carriedOut carried) run rfl
    refine ⟨fun high => answers (by rw [runReadLane, toFin?_none high]; rfl), fun l index => answers ?_⟩
    rw [runReadLane, toFin?_val l index, ← readLaneWords_eq]
  case rule =>
    have answers {status : Status} {words : List Word} (run : runReadRule p u = (u, .reply status words)) :
        exec .readRule s = answer status words :=
      takeRecord_reply headed carried (isCommand_carriedOut carried) run rfl
    refine ⟨fun high => answers (by rw [runReadRule, toFin?_none high]; rfl), fun i index =>
      ⟨fun without => answers ?_, fun l active lane => answers ?_⟩⟩
    · simp only [runReadRule, toFin?_val i index, readRuleWords, placeWords_none without, List.append_nil]
    · simp only [runReadRule, toFin?_val i index, readRuleWords, placeWords_some active lane]
  case directory =>
    intro count state descriptor id queued
    have answers {status : Status} {words : List Word} (run : runReadDirectory p u = (u, .reply status words)) :
        exec .readDirectory s = answer status words :=
      takeRecord_reply headed carried (isCommand_carriedOut carried) run rfl
    have described (b : BlockId) : blockWords (u.block b) = descriptor b := by
      have code : blockStateCode (u.block b).state = state b := by
        simp only [state]
        cases (u.block b).state <;> rfl
      rw [blockWords_eq, code]
      rfl
    have queue : fillQueueWords u = queued := by
      rw [fillQueueWords_eq]
      rfl
    refine ⟨fun high => answers (by rw [runReadDirectory, toFin?_none high]; rfl),
      fun low bad => answers (runReadDirectory_count low bad), fun low least most => answers ?_⟩
    rw [runReadDirectory_read low least most, queue]
    simp only [described]
    rfl

end Sys2Proof.StateReads
end

section
/-! PROOFS. Lanes that leave play: what one lane gives up, and what a number of lanes give up together, the rules of
each counted once (R7, R10, R12, R38, R66, R109). -/

namespace Sys2Proof.LaneStops

open Sys2Proof.Machine

/-! ## Frames -/

/-- What lanes that leave play keep: they move lanes, rules, the latch, the Return Sender and the IN_USE of blocks. -/
structure StopFrame (s t : State) : Prop where
  tick : TickFrame s t
  dir : t.dir = { s.dir with blocks := t.dir.blocks }

theorem StopFrame.refl (s : State) : StopFrame s s := ⟨.refl s, rfl⟩

theorem StopFrame.trans {s t u : State} (a : StopFrame s t) (b : StopFrame t u) : StopFrame s u where
  tick := a.tick.trans b.tick
  dir := by rw [b.dir, a.dir]

theorem StopFrame.of_dir {s t : State} (tick : TickFrame s t) (dir : t.dir = s.dir) : StopFrame s t where
  tick := tick
  dir := by rw [dir]

theorem StopFrame.eq_with {s t : State} (h : StopFrame s t) : t = { s with
    lanes := t.lanes
    rules := t.rules
    dir := { s.dir with blocks := t.dir.blocks }
    latch := t.latch
    ret := t.ret } := by
  obtain ⟨⟨now, resetLow, link, cmd, curves, tmc, mem, freeCount, pending⟩, dir⟩ := h
  exact (State.mk.injEq ..).mpr
    ⟨now, resetLow, link, rfl, cmd, rfl, rfl, curves, dir, tmc, mem, rfl, freeCount, pending⟩

theorem block_of_dir {s t : State} (dir : t.dir = s.dir) (b : BlockId) : t.block b = s.block b :=
  congrArg (fun d : Directory => d.blocks[b.val]) dir

/-! ## One lane (R38, R66, R109) -/

theorem returns_iff (s : State) (l : LaneId) (r : RuleId) : returns s l r = true ↔
    r ∈ (s.lane l).chain ∨ ((s.rule r).fields.lane = l.val ∧
      ((s.rule r).state = .triggered ∨ (s.rule r).state = .active)) := by
  simp only [returns, Bool.or_eq_true, Bool.and_eq_true, decide_eq_true_eq, List.contains_iff_mem]
  exact or_comm

section ReturnRules

variable (s : State) (l : LaneId)

theorem lane_returnRules (k : LaneId) : (returnRules s l).lane k =
    { s.lane k with chain := if k = l then [] else (s.lane k).chain.filter fun r => !returns s l r } := by
  simp [returnRules]

theorem rule_returnRules (r : RuleId) :
    (returnRules s l).rule r = if returns s l r then (s.rule r).returned else s.rule r := by
  simp [returnRules]

theorem returnRules_dir : (returnRules s l).dir = s.dir := by simp [returnRules]

end ReturnRules

theorem dropUse_cons (s : State) (b : BlockId) (rest : List BlockId) :
    dropUse s (b :: rest) = dropUse (s.setBlock b { s.block b with inUse := (s.block b).inUse - 1 }) rest :=
  List.foldl_cons ..

theorem block_dropUse (blocks : List BlockId) (s : State) (c : BlockId) :
    (dropUse s blocks).block c = { s.block c with inUse := (s.block c).inUse - blocks.count c } := by
  induction blocks generalizing s with
  | nil => rfl
  | cons b rest ih =>
    rw [dropUse_cons, ih, State.block_setBlock]
    by_cases same : b = c
    · subst same
      rw [if_pos rfl, List.count_cons_self]
      have less : (s.block b).inUse - 1 - rest.count b = (s.block b).inUse - (rest.count b + 1) := by omega
      exact congrArg (fun n => { s.block b with inUse := n }) less
    · rw [if_neg same, List.count_cons_of_ne same]

theorem rule_dropUse (blocks : List BlockId) (s : State) (r : RuleId) : (dropUse s blocks).rule r = s.rule r := by
  induction blocks generalizing s with
  | nil => rfl
  | cons b rest ih => rw [dropUse_cons, ih]; rfl

theorem stopFrame_dropUse (blocks : List BlockId) (s : State) : StopFrame s (dropUse s blocks) := by
  induction blocks generalizing s with
  | nil => exact .refl s
  | cons b rest ih =>
    rw [dropUse_cons]
    exact .trans ⟨tickFrame_setBlock s b _, rfl⟩ (ih _)

/-- What lane `l` leaving play changes, its own record changing by `finish`. -/
structure StopsOne (finish : Lane → Lane) (s : State) (l : LaneId) (t : State) : Prop where
  self : t.lane l = finish (s.lane l)
  other : ∀ k, k ≠ l → t.lane k = { s.lane k with chain := (s.lane k).chain.filter fun r => !returns s l r }
  rule : ∀ r, t.rule r = if returns s l r then (s.rule r).returned else s.rule r
  block : ∀ b, t.block b = { s.block b with inUse := (s.block b).inUse - (s.lane l).counted.count b }
  frame : StopFrame s t

/-- What a lane that leaves play gives up. -/
def givesUp (x : Lane) : Lane := { x.releaseReplay with chain := [], counted := [] }

theorem stopsOne_releaseLane (s : State) (l : LaneId) : StopsOne givesUp s l (releaseLane s l) where
  self := by
    simp only [releaseLane, State.lane_modLane_same, LaneMoves.lane_dropUse, lane_returnRules, if_true]
    rfl
  other k other := by
    simp only [releaseLane, State.lane_modLane, if_neg other.symm, LaneMoves.lane_dropUse, lane_returnRules,
      if_neg other]
  rule r := by simp only [releaseLane, State.rule_modLane, rule_dropUse, rule_returnRules]
  block b := by
    simp only [releaseLane, State.block_modLane, block_dropUse, lane_returnRules, block_of_dir (returnRules_dir s l)]
  frame := StopFrame.trans (.of_dir (tickFrame_returnRules s l) (returnRules_dir s l))
    (StopFrame.trans (stopFrame_dropUse _ _) (.of_dir (tickFrame_modLane _ l fun x => { x.releaseReplay with counted := [] }) rfl))

theorem StopsOne.modLane {finish : Lane → Lane} {s t : State} {l : LaneId} (h : StopsOne finish s l t)
    (f : Lane → Lane) : StopsOne (fun x => f (finish x)) s l (t.modLane l f) where
  self := by rw [State.lane_modLane_same, h.self]
  other k other := by rw [State.lane_modLane, if_neg other.symm, h.other k other]
  rule r := h.rule r
  block b := h.block b
  frame := h.frame.trans (.of_dir (tickFrame_modLane t l f) rfl)

theorem StopsOne.congr {finish : Lane → Lane} {s t u : State} {l : LaneId} (h : StopsOne finish s l t)
    (lanes : u.lanes = t.lanes) (rules : u.rules = t.rules) (dir : u.dir = t.dir) (tick : TickFrame t u) :
    StopsOne finish s l u where
  self := (congrArg (·[l.val]) lanes).trans h.self
  other k other := (congrArg (·[k.val]) lanes).trans (h.other k other)
  rule r := (congrArg (·[r.val]) rules).trans (h.rule r)
  block b := (block_of_dir dir b).trans (h.block b)
  frame := h.frame.trans (.of_dir tick dir)

theorem StopsOne.of_self {finish other : Lane → Lane} {s t : State} {l : LaneId} (h : StopsOne finish s l t)
    (same : finish (s.lane l) = other (s.lane l)) : StopsOne other s l t :=
  ⟨h.self.trans same, h.other, h.rule, h.block, h.frame⟩

theorem stopsOne_laneOff (s : State) (l : LaneId) :
    StopsOne (fun x => { givesUp x with state := .off, pacing := .stopped }) s l (laneOff s l) :=
  (stopsOne_releaseLane s l).modLane fun x => { x with state := .off, pacing := .stopped }

/-- No notice, no reply, no TAP word and no report. -/
structure Silent (s t : State) : Prop where
  ret : t.ret = s.ret
  latch : t.latch = s.latch

theorem Silent.refl (s : State) : Silent s s := ⟨rfl, rfl⟩

theorem Silent.trans {s t u : State} (a : Silent s t) (b : Silent t u) : Silent s u :=
  ⟨b.ret.trans a.ret, b.latch.trans a.latch⟩

theorem silent_foldl {α : Type} {op : State → α → State} (one : ∀ s a, Silent s (op s a)) (list : List α) (s : State) :
    Silent s (list.foldl op s) := by
  induction list generalizing s with
  | nil => exact .refl s
  | cons a rest ih => exact (one s a).trans (ih _)

theorem silent_releaseLane (s : State) (l : LaneId) : Silent s (releaseLane s l) := by
  have returned : Silent s (returnRules s l) := ⟨by simp [returnRules], by simp [returnRules]⟩
  have dropped (t : State) (blocks : List BlockId) : Silent t (dropUse t blocks) :=
    silent_foldl (op := fun s b => s.setBlock b { s.block b with inUse := (s.block b).inUse - 1 })
      (fun _ _ => ⟨rfl, rfl⟩) blocks t
  exact returned.trans ((dropped _ _).trans ⟨rfl, rfl⟩)

theorem silent_laneOff (s : State) (l : LaneId) : Silent s (laneOff s l) :=
  (silent_releaseLane s l).trans ⟨rfl, rfl⟩

/-- Where nothing is sent, only lanes, rules and the blocks' IN_USE differ. -/
theorem StopFrame.eq_with_silent {s t : State} (h : StopFrame s t) (silent : Silent s t) : t = { s with
    lanes := t.lanes
    rules := t.rules
    dir := { s.dir with blocks := t.dir.blocks } } := by
  conv_lhs => rw [h.eq_with, silent.ret, silent.latch]

/-! ## A number of lanes -/

/-- Whether rule `r` returns to ARMED when the lanes `stopped` leave play. -/
def isReturned (s : State) (stopped : List LaneId) (r : RuleId) : Bool := stopped.any fun l => returns s l r

theorem isReturned_iff (s : State) (stopped : List LaneId) (r : RuleId) : isReturned s stopped r = true ↔
    ∃ l ∈ stopped, r ∈ (s.lane l).chain ∨ ((s.rule r).fields.lane = l.val ∧
      ((s.rule r).state = .triggered ∨ (s.rule r).state = .active)) := by
  simp only [isReturned, List.any_eq_true, returns_iff]

theorem isReturned_append (s : State) (stopped : List LaneId) (l : LaneId) (r : RuleId) :
    isReturned s (stopped ++ [l]) r = (isReturned s stopped r || returns s l r) := by
  simp [isReturned]

/-- A test that passes the rules that do not return passes the same as this one. -/
theorem stays_eq {s : State} {stopped : List LaneId} {gone : RuleId → Prop}
    (is : ∀ r, isReturned s stopped r = true ↔ gone r) {stays : RuleId → Bool}
    (those : ∀ r, stays r = true ↔ ¬gone r) : stays = fun r => !isReturned s stopped r := by
  funext r
  rw [Bool.eq_iff_iff, those, ← is]
  simp

/-- Of the lanes `named`, those that stop have left play, and the others have changed by `touch`. -/
structure Stopped (stops : LaneId → Bool) (finish touch : LaneId → Lane → Lane) (s : State) (named : List LaneId)
    (t : State) : Prop where
  gone : ∀ l, l ∈ named → stops l = true → t.lane l = finish l (s.lane l)
  kept : ∀ l, ¬(l ∈ named ∧ stops l = true) → t.lane l = { (if l ∈ named then touch l (s.lane l) else s.lane l) with
    chain := (s.lane l).chain.filter fun r => !isReturned s (named.filter stops) r }
  rule : ∀ r, t.rule r = if isReturned s (named.filter stops) r then (s.rule r).returned else s.rule r
  block : ∀ b, t.block b = { s.block b with
    inUse := (s.block b).inUse - ((named.filter stops).map fun l => (s.lane l).counted.count b).sum }
  frame : StopFrame s t

section Stops

variable {stops : LaneId → Bool} {finish touch : LaneId → Lane → Lane} {s u v : State} {named : List LaneId}
  {l : LaneId}

theorem stopped_nil : Stopped stops finish touch s [] s where
  gone l named := by cases named
  kept l _ := by simp [isReturned]
  rule r := by simp [isReturned]
  block b := by simp
  frame := .refl s

/-- A lane not yet reached differs from its first state in its chain alone. -/
theorem Stopped.unreached (h : Stopped stops finish touch s named u) (new : l ∉ named) : u.lane l = { s.lane l with
    chain := (s.lane l).chain.filter fun r => !isReturned s (named.filter stops) r } := by
  rw [h.kept l fun both => new both.1, if_neg new]

/-- A rule that has returned is not returned again. -/
theorem Stopped.returns_eq (h : Stopped stops finish touch s named u) (new : l ∉ named) (r : RuleId) :
    returns u l r = (!isReturned s (named.filter stops) r && returns s l r) := by
  simp only [returns, h.unreached new, h.rule r]
  cases returned : isReturned s (named.filter stops) r with
  | true => simp [Rule.returned, returned]
  | false => simp [returned]

/-- One more lane leaves play. -/
theorem Stopped.stop (h : Stopped stops finish touch s named u) (new : l ∉ named) (stop : stops l = true)
    (empties : ∀ k x, (finish k x).chain = []) (chainless : ∀ x c, finish l { x with chain := c } = finish l x)
    (one : StopsOne (finish l) u l v) :
    Stopped stops finish touch s (named ++ [l]) v := by
  have list : (named ++ [l]).filter stops = named.filter stops ++ [l] := by
    rw [List.filter_append, List.filter_cons_of_pos stop, List.filter_nil]
  have among {k : LaneId} (other : k ≠ l) : k ∈ named ++ [l] ↔ k ∈ named := by simp [other]
  refine ⟨fun k isNamed stopK => ?gone, fun k notStopped => ?kept, fun r => ?rule, fun b => ?block,
    h.frame.trans one.frame⟩
  case gone =>
    by_cases same : k = l
    · rw [same, one.self, h.unreached new, chainless]
    · have isNamed : k ∈ named := (among same).1 isNamed
      have chain := empties k (s.lane k)
      rw [one.other k same, h.gone k isNamed stopK, chain, List.filter_nil, ← chain]
  case kept =>
    have other : k ≠ l := fun same => notStopped ⟨by simp [same], same ▸ stop⟩
    have notStopped : ¬(k ∈ named ∧ stops k = true) := fun both => notStopped ⟨(among other).2 both.1, both.2⟩
    rw [one.other k other, h.kept k notStopped, List.filter_filter]
    simp only [among other, list, isReturned_append, h.returns_eq new]
    congr 1
    refine congrArg (List.filter · _) (funext fun r => ?_)
    cases isReturned s (named.filter stops) r <;> simp
  case rule =>
    rw [one.rule, h.rule, h.returns_eq new, list, isReturned_append]
    cases isReturned s (named.filter stops) r <;> simp
  case block =>
    rw [one.block, h.block, h.unreached new, list, List.map_append, List.sum_append]
    have less (m n : Nat) : (s.block b).inUse - m - n = (s.block b).inUse - (m + n) := Nat.sub_sub ..
    simp only [List.map_cons, List.map_nil, List.sum_singleton, less]

/-- One more lane is only touched. -/
theorem Stopped.passOver (h : Stopped stops finish touch s named u) (new : l ∉ named) (stays : stops l = false)
    (commutes : ∀ x c, touch l { x with chain := c } = { touch l x with chain := c }) :
    Stopped stops finish touch s (named ++ [l]) (u.modLane l (touch l)) := by
  have moving : ¬stops l = true := by simp [stays]
  have list : (named ++ [l]).filter stops = named.filter stops := by
    rw [List.filter_append, List.filter_cons_of_neg moving, List.filter_nil, List.append_nil]
  refine ⟨fun k isNamed stopK => ?gone, fun k notStopped => ?kept, fun r => ?rule, fun b => ?block,
    h.frame.trans (.of_dir (tickFrame_modLane u l (touch l)) rfl)⟩
  case gone =>
    have other : k ≠ l := fun same => moving (same ▸ stopK)
    rw [State.lane_modLane, if_neg other.symm]
    exact h.gone k (by simpa [other] using isNamed) stopK
  case kept =>
    rw [State.lane_modLane, list]
    by_cases same : k = l
    · subst same
      rw [if_pos rfl, h.unreached new, commutes, if_pos (by simp)]
    · have among : k ∈ named ++ [l] ↔ k ∈ named := by simp [same]
      rw [if_neg (Ne.symm same), h.kept k fun both => notStopped ⟨among.2 both.1, both.2⟩]
      simp only [among]
  case rule => rw [list]; exact h.rule r
  case block => rw [list]; exact h.block b

/-- The lanes `named` are taken one after another. -/
theorem stopped_foldl {op : State → LaneId → State} (distinct : named.Nodup)
    (stop : ∀ (u : State) (l : LaneId) (c : List RuleId), StopFrame s u → u.lane l = { s.lane l with chain := c } → stops l = true →
      StopsOne (finish l) u l (op u l))
    (pass : ∀ (u : State) (l : LaneId) (c : List RuleId), u.lane l = { s.lane l with chain := c } → stops l = false →
      op u l = u.modLane l (touch l))
    (empties : ∀ l x, (finish l x).chain = [])
    (chainless : ∀ l x c, finish l { x with chain := c } = finish l x)
    (commutes : ∀ l x c, touch l { x with chain := c } = { touch l x with chain := c }) :
    Stopped stops finish touch s named (named.foldl op s) := by
  induction named using List.reverseRecOn with
  | nil => exact stopped_nil
  | append_singleton before l ih =>
    obtain ⟨distinct, -, apart⟩ := List.nodup_append.1 distinct
    have new : l ∉ before := fun among => apart l among l (by simp) rfl
    have reached := ih distinct
    rw [List.foldl_append, List.foldl_cons, List.foldl_nil]
    cases moves : stops l with
    | true => exact reached.stop new moves empties (chainless l) (stop _ l _ reached.frame (reached.unreached new) moves)
    | false =>
      rw [pass _ l _ (reached.unreached new) moves]
      exact reached.passOver new moves (commutes l)

end Stops

/-- What the lanes that stop take from a block, told lane by lane. -/
theorem sum_share {stopped : List LaneId} (distinct : stopped.Nodup) {share part : LaneId → Nat}
    (parts : ∀ l, (l ∈ stopped → share l = part l) ∧ (l ∉ stopped → share l = 0)) :
    ((List.finRange 24).map share).sum = (stopped.map part).sum := by
  have same : stopped.map part = stopped.map share := List.map_congr_left fun l among => ((parts l).1 among).symm
  have perm : ((List.finRange 24).filter fun l => l ∈ stopped).Perm stopped :=
    (List.perm_ext_iff_of_nodup ((List.nodup_finRange 24).filter _) distinct).2 fun l => by simp
  have outside (all : List LaneId) : (all.map share).sum = ((all.filter fun l => l ∈ stopped).map share).sum := by
    induction all with
    | nil => rfl
    | cons l rest ih =>
      by_cases among : l ∈ stopped
      · simp [among, ih]
      · simp [among, ih, (parts l).2 among]
  rw [same, outside, (perm.map share).sum_eq]

end Sys2Proof.LaneStops
end

section
/-! PROOFS. RESET_LANE and STOP_LANES (R7, R8, R12, R38, R65, R66, R109; log 4). -/

namespace Sys2Proof.LaneStops

open Sys2Proof.Machine

/-! ## RESET_LANE (R12) -/

/-- The lane that RESET_LANE leaves. -/
def cleared (x : Lane) : Lane := Lane.dropPending (Lane.clearRecords { givesUp x with state := .off, pacing := .stopped })

theorem cleared_eq (x : Lane) : cleared x = { x with
    state := .off
    pacing := .stopped
    live := ⟨0, false, false⟩
    prev := none
    history := []
    counters := ⟨0, 0, 0, 0, 0, 0, 0⟩
    queue := []
    fetch := x.fetch.map fun f => { f with voided := true }
    fetchPos := .none
    debt := 0
    counted := []
    chain := []
    port := { x.port with pending := none } } := rfl

theorem stopsOne_resetOneLane (s : State) (l : LaneId) : StopsOne cleared s l (resetOneLane s l) :=
  (stopsOne_laneOff s l).modLane fun x => x.clearRecords.dropPending

theorem silent_resetOneLane (s : State) (l : LaneId) : Silent s (resetOneLane s l) :=
  (silent_laneOff s l).trans ⟨rfl, rfl⟩

/-- Settles O47: one lane leaves play, and its records are cleared. -/
theorem resetLaneClearsItsRecords : Obligations.ResetLaneClearsItsRecords := by
  intro s p rest headed carried u
  have answers {v : State} {status : Status} (run : runResetLane p u = (v, .reply status []))
      (cmd : v.cmd = u.cmd) : exec .resetLane s = .next (replied v p rest ⟨status, p.tag, p.code, []⟩) :=
    takeRecord_reply headed carried (isCommand_carriedOut carried) run (congrArg _ cmd)
  refine ⟨fun high => answers (by rw [runResetLane, toFin?_none high]; rfl) rfl, fun l index => ?_⟩
  intro gone
  have one := stopsOne_resetOneLane u l
  have those (r : RuleId) : isReturned u [l] r = true ↔ gone r := by simp [isReturned_iff, gone]
  have alone (r : RuleId) : returns u l r = isReturned u [l] r := by simp [isReturned]
  have run : runResetLane p u = (resetOneLane u l, .reply .done []) := by rw [runResetLane, toFin?_val l index]
  refine ⟨resetOneLane u l, answers run one.frame.tick.cmd, one.self.trans (cleared_eq _), fun stays isStays k other => ?_,
    fun r => ⟨fun isGone => ?_, fun kept => ?_⟩, one.block, one.frame.eq_with_silent (silent_resetOneLane u l)⟩
  · rw [one.other k other, stays_eq those isStays]
    simp only [alone]
  · rw [one.rule, alone, if_pos ((those r).2 isGone)]
    rfl
  · rw [one.rule, alone, if_neg (mt (those r).1 kept)]

/-! ## STOP_LANES (R7, R8) -/

/-- The lane that STOP_LANES takes OFF. -/
def takenOff (x : Lane) : Lane := Lane.dropPending { givesUp x with state := .off, pacing := .stopped }

theorem takenOff_eq (x : Lane) : takenOff x = { x with
    state := .off
    pacing := .stopped
    queue := []
    fetch := x.fetch.map fun f => { f with voided := true }
    fetchPos := .none
    debt := 0
    counted := []
    chain := []
    port := { x.port with pending := none } } := rfl

/-- What STOP_LANES does to a lane that it does not take OFF. -/
def drained (drain : Bool) (x : Lane) : Lane :=
  if drain = true ∧ x.state = .running ∧ x.config.source = .replay then x.drain else x

/-- Whether STOP_LANES takes a named lane OFF. -/
def takesOff (drain : Bool) (x : Lane) : Bool :=
  x.state.inPlay && !(drain && (decide (x.state = .running ∧ x.config.source = .replay) || decide (x.state = .draining)))

theorem takesOff_iff (drain : Bool) (x : Lane) : takesOff drain x = true ↔
    (x.state = .primed ∨ x.state = .running ∨ x.state = .draining) ∧ ¬(drain = true ∧
      ((x.state = .running ∧ x.config.source = .replay) ∨ x.state = .draining)) := by
  simp only [takesOff, Bool.and_eq_true, FaultRules.inPlay_iff, Bool.not_eq_true', ← Bool.not_eq_true, Bool.or_eq_true,
    decide_eq_true_eq]

theorem drain_chain (x : Lane) (c : List RuleId) :
    Lane.drain { x with chain := c } = { x.drain with chain := c } := by
  have words : ({ x with chain := c } : Lane).liveFetchWords = x.liveFetchWords := rfl
  unfold Lane.drain
  rw [words]
  dsimp only
  cases throughEndOfPass x.queue with
  | some kept => rfl
  | none =>
    by_cases ends : (x.liveFetchWords.any fun w => w.endOfPass) = true
    · rw [if_pos ends, if_pos ends]
    · rw [if_neg ends, if_neg ends]

theorem drained_chain (drain : Bool) (x : Lane) (c : List RuleId) :
    drained drain { x with chain := c } = { drained drain x with chain := c } := by
  unfold drained
  split
  · exact drain_chain x c
  · rfl

section Rows

variable (s : State) (l : LaneId)

theorem stopsOne_stopLaneNow (inPlay : (s.lane l).state.inPlay = true) : StopsOne takenOff s l (stopLaneNow s l) := by
  rw [stopLaneNow, if_pos inPlay]
  exact (stopsOne_laneOff s l).modLane Lane.dropPending

theorem stopLaneNow_not_inPlay (out : ¬(s.lane l).state.inPlay = true) : stopLaneNow s l = s := if_neg out

/-- STOP_LANES on one lane, in either mode. -/
def stopLane (drain : Bool) : State → LaneId → State := if drain then stopLaneDrain else stopLaneNow

theorem stopLane_eq (drain : Bool) : stopLane drain s l =
    if takesOff drain (s.lane l) then stopLaneNow s l else s.modLane l (drained drain) := by
  have still (f : Lane → Lane) (same : f (s.lane l) = s.lane l) : s.modLane l f = s := Conversion.modLane_self same
  cases drain with
  | false =>
    have same : drained false (s.lane l) = s.lane l := if_neg (by simp)
    simp only [stopLane, takesOff, Bool.false_and, Bool.not_false, Bool.and_true, still _ same]
    by_cases inPlay : (s.lane l).state.inPlay = true
    · rw [if_pos inPlay]
      rfl
    · rw [if_neg inPlay]
      exact stopLaneNow_not_inPlay s l inPlay
  | true =>
    simp only [stopLane, if_true, stopLaneDrain]
    cases state : (s.lane l).state with
    | running =>
      by_cases replay : (s.lane l).config.source = .replay
      · simp [takesOff, drained, State.modLane, state, replay]
      · simp [takesOff, state, replay, LaneState.inPlay]
    | draining => simp [takesOff, state, still, drained]
    | primed => simp [takesOff, state, LaneState.inPlay]
    | off => simp [takesOff, state, still, drained, LaneState.inPlay]
    | halted => simp [takesOff, state, still, drained, LaneState.inPlay]

theorem silent_stopLane (drain : Bool) : Silent s (stopLane drain s l) := by
  rw [stopLane_eq]
  split
  · unfold stopLaneNow
    split
    · exact (silent_laneOff s l).trans ⟨rfl, rfl⟩
    · exact .refl s
  · exact ⟨rfl, rfl⟩

end Rows

theorem inPlay_of_takesOff {drain : Bool} {x : Lane} (moves : takesOff drain x = true) : x.state.inPlay = true := by
  unfold takesOff at moves
  exact (Bool.and_eq_true_iff.1 moves).1

/-- STOP_LANES on the lanes named, all told. -/
theorem stopped_stopLane (drain : Bool) (s : State) {named : List LaneId} (distinct : named.Nodup) :
    Stopped (fun l => takesOff drain (s.lane l)) (fun _ => takenOff) (fun _ => drained drain) s named
      (named.foldl (stopLane drain) s) := by
  refine stopped_foldl distinct (fun u l c _ lane moves => ?stop) (fun u l c lane stays => ?pass) (fun _ _ => rfl)
    (fun _ _ _ => rfl) fun _ => drained_chain drain
  case stop =>
    have moves : takesOff drain (u.lane l) = true := by rw [lane]; exact moves
    rw [stopLane_eq, if_pos moves]
    exact stopsOne_stopLaneNow u l (inPlay_of_takesOff moves)
  case pass =>
    have stays : ¬takesOff drain (u.lane l) = true := by rw [lane]; exact Bool.eq_false_iff.1 stays
    rw [stopLane_eq, if_neg stays]

/-! ### The named lanes (R4, R7) -/

theorem maskLanes_none {mask : Word} (bad : mask = 0 ∨ 2 ^ 24 ≤ mask.toNat) : maskLanes mask = none := by
  refine if_pos (bad.imp (fun zero => ?_) id)
  rw [zero]
  rfl

theorem maskLanes_some {mask : Word} (some : mask ≠ 0) (low : mask.toNat < 2 ^ 24) :
    maskLanes mask = .some ((List.finRange 24).filter fun l => mask.getLsbD l.val) := by
  have nonzero : mask.toNat ≠ 0 := fun zero => some (BitVec.eq_of_toNat_eq zero)
  exact if_neg (by omega)

theorem runStop_refused {stop : State → LaneId → State} {p : Place} {u : State}
    (bad : param p.payload 0 = 0 ∨ 2 ^ 24 ≤ (param p.payload 0).toNat) :
    runStop stop p u = (u, .reply .badValue []) := by
  rw [runStop, maskLanes_none bad]
  rfl

theorem runStop_taken {stop : State → LaneId → State} {p : Place} {u : State} {named : List LaneId}
    (lanes : maskLanes (param p.payload 0) = some named) : runStop stop p u = (named.foldl stop u,
      .reply (if ∃ l ∈ named, stopResult u l = .done then .done else .laneBusy)
        (named.map fun l => numberWord (stopResult u l).code)) := by
  have done : (named.map (stopResult u)).contains .done = true ↔ ∃ l ∈ named, stopResult u l = .done := by
    rw [List.contains_iff_mem, List.mem_map]
  simp only [runStop, lanes, done, List.map_map]
  rfl

section ExecStop

variable {s u v : State} {p : Place} {rest : List Place} {status : Status} {words : List Word}

theorem isStop_carriedOut (carried : CarriedOut .stopLanes p) {k : Nat} (other : stopMode p ≠ k) :
    (isCommand .stopLanes p && ((judge p).isSome || stopMode p != k)) = true := by
  have differs : (stopMode p != k) = true := bne_iff_ne.2 other
  rw [isCommand_carriedOut carried, differs, Bool.or_true, Bool.and_true]

/-- The row STOP_LANES_NOW takes a record whose mode is not 1. -/
theorem exec_stopLanesNow (settled : u = settle s) (headed : Headed s p rest) (carried : CarriedOut .stopLanes p) (other : stopMode p ≠ 1)
    (run : (if stopMode p = 0 then runStop stopLaneNow p u else (u, refusedWith .badValue)) =
      (v, .reply status words)) (cmd : v.cmd = u.cmd) :
    exec .stopLanesNow s = .next (replied v p rest ⟨status, p.tag, p.code, words⟩) :=
  takeRecord_reply (m := "STOP_LANES_NOW")
    (run := fun p s => if stopMode p = 0 then runStop stopLaneNow p s else (s, refusedWith .badValue))
    headed carried (isStop_carriedOut carried other)
    (settled ▸ run) (settled ▸ congrArg _ cmd)

/-- The row STOP_LANES_DRAIN takes a record whose mode is not 0. -/
theorem exec_stopLanesDrain (settled : u = settle s) (headed : Headed s p rest) (carried : CarriedOut .stopLanes p) (other : stopMode p ≠ 0)
    (run : (if stopMode p = 1 then runStop stopLaneDrain p u else (u, refusedWith .badValue)) =
      (v, .reply status words)) (cmd : v.cmd = u.cmd) :
    exec .stopLanesDrain s = .next (replied v p rest ⟨status, p.tag, p.code, words⟩) :=
  takeRecord_reply (m := "STOP_LANES_DRAIN")
    (run := fun p s => if stopMode p = 1 then runStop stopLaneDrain p s else (s, refusedWith .badValue))
    headed carried (isStop_carriedOut carried other)
    (settled ▸ run) (settled ▸ congrArg _ cmd)

end ExecStop

/-- Settles O45: the mode chooses the row, and the lanes that stop leave play together. -/
theorem stopTakesLanesOutOfPlay : Obligations.StopTakesLanesOutOfPlay := by
  intro s p rest headed carried u
  have settled : u = settle s := rfl
  clear_value u
  intro mask mode named result drains inPlay stops returned carriedOut refused
  have byMode (row : Instr) (d : Bool) (modes : mode = 1 ↔ d = true) (mask0 : mask ≠ 0) (low : mask.toNat < 2 ^ 24)
      (answers : ∀ {v : State} {status : Status} {words : List Word},
        runStop (stopLane d) p u = (v, .reply status words) → v.cmd = u.cmd →
          exec row s = .next (replied v p rest ⟨status, p.tag, p.code, words⟩)) : carriedOut row := by
    have distinct : named.Nodup := (List.nodup_finRange 24).filter fun l => mask.getLsbD l.val
    have all := stopped_stopLane d u distinct
    have silent : Silent u (named.foldl (stopLane d) u) := silent_foldl (fun s l => silent_stopLane s l d) named u
    have playOut (l : LaneId) : drains l ↔ d = true ∧
        (((u.lane l).state = .running ∧ (u.lane l).config.source = .replay) ∨ (u.lane l).state = .draining) := by
      rw [← modes]
    have stopsIff (l : LaneId) : stops l ↔ l ∈ named ∧ takesOff d (u.lane l) = true := by
      rw [takesOff_iff, ← playOut]
    have touched (l : LaneId) : (drains l ∧ (u.lane l).state = .running) ↔
        d = true ∧ (u.lane l).state = .running ∧ (u.lane l).config.source = .replay := by
      rw [playOut]
      constructor
      · rintro ⟨⟨drain, ⟨-, replay⟩ | draining⟩, running⟩
        · exact ⟨drain, running, replay⟩
        · cases running.symm.trans draining
      · exact fun ⟨drain, running, replay⟩ => ⟨⟨drain, .inl ⟨running, replay⟩⟩, running⟩
    have gone (r : RuleId) : isReturned u (named.filter fun l => takesOff d (u.lane l)) r = true ↔ returned r := by
      simp only [isReturned_iff, List.mem_filter, ← stopsIff]
      rfl
    refine ⟨named.foldl (stopLane d) u, answers (runStop_taken (maskLanes_some mask0 low)) all.frame.tick.cmd,
      fun l isStopped => ?off, fun stays isStays => ⟨fun l isNamed drainsL running => ?drains, fun l stayed still => ?kept⟩,
      fun r => ⟨fun isReturned => ?returned, fun isKept => ?unreturned⟩, fun b share shares => ?block,
      all.frame.eq_with_silent silent⟩
    case off =>
      obtain ⟨isNamed, off⟩ := (stopsIff l).1 isStopped
      exact (all.gone l isNamed off).trans (takenOff_eq _)
    case drains =>
      have stayed : ¬(l ∈ named ∧ takesOff d (u.lane l) = true) := fun off => ((stopsIff l).2 off).2.2 drainsL
      rw [all.kept l stayed, if_pos isNamed, stays_eq gone isStays, drained, if_pos ((touched l).1 ⟨drainsL, running⟩)]
    case kept =>
      have same : (if l ∈ named then drained d (u.lane l) else u.lane l) = u.lane l := by
        split
        · next isNamed => exact if_neg fun playsOut => still ⟨isNamed, (touched l).2 playsOut⟩
        · rfl
      rw [all.kept l (mt (stopsIff l).2 stayed), same, stays_eq gone isStays]
    case returned =>
      rw [all.rule, if_pos ((gone r).2 isReturned)]
      rfl
    case unreturned => rw [all.rule, if_neg (mt (gone r).1 isKept)]
    case block =>
      have parts (l : LaneId) :
          (l ∈ named.filter (fun l => takesOff d (u.lane l)) → share l = (u.lane l).counted.count b) ∧
          (l ∉ named.filter (fun l => takesOff d (u.lane l)) → share l = 0) := by
        rw [List.mem_filter, ← stopsIff]
        exact shares l
      rw [all.block, ← sum_share (distinct.filter _) parts]
  have undefined {row : Nat} (other : mode ≠ row) (stop : State → LaneId → State) :
      (if stopMode p = row then runStop stop p u else (u, refusedWith .badValue)) = (u, .reply .badValue []) :=
    if_neg other
  refine ⟨fun high => ⟨exec_stopLanesNow settled headed carried (show mode ≠ 1 by omega) (undefined (show mode ≠ 0 by omega) _) rfl,
      exec_stopLanesDrain settled headed carried (show mode ≠ 0 by omega) (undefined (show mode ≠ 1 by omega) _) rfl⟩,
    fun bad => ⟨fun isNow => exec_stopLanesNow settled headed carried (show mode ≠ 1 by omega) ?_ rfl,
      fun isDrain => exec_stopLanesDrain settled headed carried (show mode ≠ 0 by omega) ?_ rfl⟩,
    fun mask0 low => ⟨fun isNow => byMode .stopLanesNow false (by simp [isNow]) mask0 low fun run cmd =>
        exec_stopLanesNow settled headed carried (show mode ≠ 1 by omega) ((if_pos isNow).trans run) cmd,
      fun isDrain => byMode .stopLanesDrain true (by simp [isDrain]) mask0 low fun run cmd =>
        exec_stopLanesDrain settled headed carried (show mode ≠ 0 by omega) ((if_pos isDrain).trans run) cmd⟩⟩
  · exact (if_pos isNow).trans (runStop_refused bad)
  · exact (if_pos isDrain).trans (runStop_refused bad)

end Sys2Proof.LaneStops
end

section
/-! PROOFS. Reports: the latch's table, and the lanes that a HARD report halts (R10, R38, R66, R109, R138, R140, R141,
R144, R163; log 33, log 41). -/

namespace Sys2Proof.Reports

open Sys2Proof.Machine Sys2Proof.LaneStops

/-! ## One halt (R10) -/

/-- A lane that enters HALTED, before its fallback word. -/
def entersHalted (x : Lane) : Lane :=
  { givesUp x with state := .halted, pacing := if x.config.fallback = .live then x.pacing else .stopped }

theorem entersHalted_eq (x : Lane) : entersHalted x = { x with
    state := .halted
    pacing := if x.config.fallback = .live then x.pacing else .stopped
    queue := []
    fetch := x.fetch.map fun f => { f with voided := true }
    fetchPos := .none
    debt := 0
    counted := []
    chain := [] } := rfl

/-- A lane that halts and hands its fallback word. -/
def halts (now : Nat) (x : Lane) : Lane := (entersHalted x).handed now (plainHandOver x.haltWord true).word

theorem handed_chain (now : Nat) (x : Lane) (w : PortWord) : (x.handed now w).chain = x.chain := by
  unfold Lane.handed
  dsimp only
  split <;> rfl

theorem halts_chain (now : Nat) (x : Lane) : (halts now x).chain = [] := handed_chain now _ _

/-- What a lane that halts, standing as `x`, sends: its notice, and its TAP word. -/
def sendsHalt (link : Link) (l : LaneId) (x : Lane) (v : State) : ReturnSender :=
  HandOvers.tapped (offerNotice v .laneEnded [BitVec.ofNat 32 (l.val + 2 * 2 ^ 8), link.currentCycle,
      BitVec.ofNat 32 x.counters.ticks]).ret l
    (BitVec.ofNat 32 (l.val * 2 ^ 27 + 1 * 2 ^ 24 + x.haltWord.toNat))

theorem endedWord_eq (l : LaneId) (reason : EndReason) :
    packWord [(l.val, 0), (reason.code, 8)] = BitVec.ofNat 32 (l.val + reason.code * 2 ^ 8) := by
  have sum : FaultRules.fieldSum [(l.val, 0), (reason.code, 8)] = l.val + reason.code * 2 ^ 8 := by
    simp only [FaultRules.fieldSum_cons, FaultRules.fieldSum_nil]
    omega
  exact congrArg (BitVec.ofNat 32) sum

theorem haltTapWord_eq (l : LaneId) (w : OutCode) :
    tapWord l .normal true false w = BitVec.ofNat 32 (l.val * 2 ^ 27 + 1 * 2 ^ 24 + w.toNat) := by
  rw [HandOvers.tapWord_eq]
  have sum : l.val * 2 ^ 27 + lineCode .normal * 2 ^ 25 + true.toNat * 2 ^ 24 + false.toNat * 2 ^ 23 + w.toNat =
      l.val * 2 ^ 27 + 1 * 2 ^ 24 + w.toNat := by
    simp only [lineCode, Bool.toNat_true, Bool.toNat_false]
    omega
  rw [sum]

/-- What the halt of lane `l`, of the state `s`, sends. -/
def afterHalt (s : State) (v : State) (l : LaneId) : State := { v with ret := sendsHalt s.link l (s.lane l) v }

section Halt

variable {s : State} {l : LaneId}

/-- The lane as it stands when its LANE_ENDED is offered. -/
def released (s : State) (l : LaneId) : State := (releaseLane s l).modLane l fun x =>
  { x with state := .halted, pacing := if x.config.fallback = .live then x.pacing else .stopped }

theorem haltLane_eq (inPlay : (s.lane l).state.inPlay = true) : haltLane s l =
    handOver (offerLaneEnded (released s l) l .halted) l
      (plainHandOver ((offerLaneEnded (released s l) l .halted).lane l).haltWord true) := if_pos inPlay

theorem stopsOne_released : StopsOne entersHalted s l (released s l) :=
  (stopsOne_releaseLane s l).modLane fun x =>
    { x with state := .halted, pacing := if x.config.fallback = .live then x.pacing else .stopped }

theorem stopsOne_offered : StopsOne entersHalted s l (offerLaneEnded (released s l) l .halted) := by
  have only := FaultLatch.offerNotice_eq_with (released s l) .laneEnded
    [packWord [(l.val, 0), (EndReason.halted.code, 8)], (released s l).link.currentCycle,
      numberWord ((released s l).lane l).counters.ticks]
  refine stopsOne_released.congr ?_ ?_ ?_ (tickFrame_offerLaneEnded _ l _) <;>
    (rw [offerLaneEnded, only])

theorem stopsOne_haltLane (inPlay : (s.lane l).state.inPlay = true) :
    StopsOne (halts s.now) s l (haltLane s l) := by
  rw [haltLane_eq inPlay, HandOvers.handOver_eq]
  have word : ((offerLaneEnded (released s l) l .halted).lane l).haltWord = (s.lane l).haltWord := by
    rw [stopsOne_offered.self]
    rfl
  have now : (offerLaneEnded (released s l) l .halted).now = s.now := stopsOne_offered.frame.tick.now
  rw [word, now]
  have handed := (stopsOne_offered (s := s) (l := l)).modLane fun x =>
    x.handed s.now (plainHandOver (s.lane l).haltWord true).word
  exact (handed.of_self (other := halts s.now) rfl).congr rfl rfl rfl (tickFrame_ret _ _)

theorem haltLane_ret (inPlay : (s.lane l).state.inPlay = true) :
    (haltLane s l).ret = sendsHalt s.link l (s.lane l) s := by
  have ret : (released s l).ret = s.ret := (silent_releaseLane s l).ret
  have link : (released s l).link = s.link := (stopsOne_released (s := s) (l := l)).frame.tick.link
  have lane : (released s l).lane l = entersHalted (s.lane l) := stopsOne_released.self
  have word : ((offerLaneEnded (released s l) l .halted).lane l).haltWord = (s.lane l).haltWord := by
    rw [stopsOne_offered.self]
    rfl
  have offered : (offerLaneEnded (released s l) l .halted).ret = (offerNotice s .laneEnded
      [BitVec.ofNat 32 (l.val + 2 * 2 ^ 8), s.link.currentCycle, BitVec.ofNat 32 (s.lane l).counters.ticks]).ret := by
    rw [offerLaneEnded, endedWord_eq, link, lane]
    exact FaultRules.offerNotice_ret_congr ret _ _
  rw [haltLane_eq inPlay, HandOvers.handOver_ret, word, offered, sendsHalt, ← haltTapWord_eq]
  rfl

theorem haltLane_latch : (haltLane s l).latch = s.latch := by
  by_cases inPlay : (s.lane l).state.inPlay = true
  · have only := FaultLatch.offerNotice_eq_with (released s l) .laneEnded
      [packWord [(l.val, 0), (EndReason.halted.code, 8)], (released s l).link.currentCycle,
        numberWord ((released s l).lane l).counters.ticks]
    have offered : (offerLaneEnded (released s l) l .halted).latch = s.latch := by
      rw [offerLaneEnded, only]
      exact (silent_releaseLane s l).latch
    rw [haltLane_eq inPlay, HandOvers.handOver_eq]
    exact offered
  · rw [haltLane, if_neg inPlay]

end Halt

/-! ## A number of halts (R141) -/

section Halts

variable (s : State) {orders : List LaneId}

/-- The halts that `orders` names, all told. -/
theorem stopped_haltLane (distinct : orders.Nodup) : Stopped (fun l => (s.lane l).state.inPlay) (fun _ => halts s.now)
    (fun _ x => x) s orders (orders.foldl haltLane s) := by
  refine stopped_foldl distinct (fun u l c frame lane inPlay => ?stop) (fun u l c lane out => ?pass)
    (fun _ x => halts_chain s.now x) (fun _ _ _ => rfl) fun _ _ _ => rfl
  case stop =>
    have inPlay : (u.lane l).state.inPlay = true := by rw [lane]; exact inPlay
    rw [← frame.tick.now]
    exact stopsOne_haltLane inPlay
  case pass =>
    have out : ¬(u.lane l).state.inPlay = true := by rw [lane]; exact Bool.eq_false_iff.1 out
    rw [haltLane, if_neg out]
    exact (Conversion.modLane_self rfl).symm

theorem foldl_haltLane_latch : (orders.foldl haltLane s).latch = s.latch := by
  induction orders generalizing s with
  | nil => rfl
  | cons l rest ih => exact (ih _).trans haltLane_latch

/-- What the halts send, in their order. -/
theorem foldl_haltLane_ret (distinct : orders.Nodup) : (orders.foldl haltLane s).ret =
    ((orders.filter fun l => (s.lane l).state.inPlay).foldl (afterHalt s) s).ret := by
  induction orders using List.reverseRecOn with
  | nil => rfl
  | append_singleton before l ih =>
    obtain ⟨distinct, -, apart⟩ := List.nodup_append.1 distinct
    have new : l ∉ before := fun among => apart l among l (by simp) rfl
    have all := stopped_haltLane s distinct
    have lane := all.unreached new
    have link := all.frame.tick.link
    have ret := ih distinct
    set u := before.foldl haltLane s
    rw [List.foldl_append, List.foldl_cons, List.foldl_nil, List.filter_append, List.foldl_append]
    by_cases inPlay : (s.lane l).state.inPlay = true
    · have stillInPlay : (u.lane l).state.inPlay = true := by rw [lane]; exact inPlay
      have one : [l].filter (fun l => (s.lane l).state.inPlay) = [l] := List.filter_cons_of_pos inPlay
      rw [haltLane_ret stillInPlay, one, link, lane]
      exact congrArg (HandOvers.tapped · l _) (FaultRules.offerNotice_ret_congr ret _ _)
    · have stillOut : ¬(u.lane l).state.inPlay = true := by rw [lane]; exact inPlay
      have none : [l].filter (fun l => (s.lane l).state.inPlay) = [] := List.filter_cons_of_neg inPlay
      rw [haltLane, if_neg stillOut, none]
      exact ret

end Halts

/-! ## The latch (R140, R144) -/

section Latch

variable (s : State) (d : Descriptor)

/-- The lanes that a report orders to halt, those out of play among them. -/
def orders : List LaneId := if nests s.latch.state d then List.finRange 24 else d.detail.hardLane.toList

theorem takeReport_eq : takeReport s d = (orders s d).foldl haltLane (latchTakes s d) := by
  unfold takeReport orders
  dsimp only
  split
  · rfl
  · cases d.detail.hardLane <;> rfl

theorem nodup_orders : (orders s d).Nodup := by
  unfold orders
  split
  · exact List.nodup_finRange 24
  · cases d.detail.hardLane <;> simp

theorem isHard_iff : d.isHard = true ↔ d.detail.hardLane ≠ none := Option.isSome_iff_ne_none

theorem nests_iff : nests s.latch.state d = true ↔
    d.detail.hardLane ≠ none ∧ ∃ h, s.latch.state = .held h ∧ h.detail.hardLane ≠ none := by
  cases state : s.latch.state with
  | held h =>
    simp only [nests, Bool.and_eq_true, isHard_iff, LatchState.held.injEq, exists_eq_left']
    exact and_comm
  | empty => simp [nests]
  | heldNested h => simp [nests]

theorem mem_orders (l : LaneId) : l ∈ orders s d ↔ d.detail.hardLane = some l ∨
    (d.detail.hardLane ≠ none ∧ ∃ h, s.latch.state = .held h ∧ h.detail.hardLane ≠ none) := by
  rw [← nests_iff, orders]
  by_cases nesting : nests s.latch.state d = true
  · simp [nesting]
  · simp [nesting, Option.mem_toList]

/-- The latch after a report (R140). -/
def latchAfter (k : Latch) (d : Descriptor) : Latch :=
  match k.state with
  | .empty => { k with state := .held d }
  | .held h =>
    if d.isHard then
      if h.isHard then { k with state := .heldNested h, hardLater := countUp k.hardLater }
      else { k with state := .held d, softLater := countUp k.softLater }
    else { k with softLater := countUp k.softLater }
  | .heldNested _ =>
    if d.isHard then { k with hardLater := countUp k.hardLater } else { k with softLater := countUp k.softLater }

/-- Whether a report's descriptor is placed in the latch (R140). -/
def places (k : LatchState) (d : Descriptor) : Bool :=
  match k with
  | .empty => true
  | .held h => d.isHard && !h.isHard
  | .heldNested _ => false

theorem places_iff : places s.latch.state d = true ↔ s.latch.state = .empty ∨
    (d.detail.hardLane ≠ none ∧ ∃ h, s.latch.state = .held h ∧ h.detail.hardLane = none) := by
  cases state : s.latch.state with
  | empty => simp [places]
  | held h =>
    have soft : h.isHard = false ↔ h.detail.hardLane = none := by simp [Descriptor.isHard]
    simp [places, isHard_iff, soft]
  | heldNested h => simp [places]

/-- The latch's move, and the notice of a descriptor placed. -/
theorem latchTakes_eq : latchTakes s d =
    if places s.latch.state d then
      offerNotice { s with latch := latchAfter s.latch d } .latchSet (latchPayload (latchAfter s.latch d))
    else { s with latch := latchAfter s.latch d } := by
  unfold latchTakes latchAfter places
  cases state : s.latch.state with
  | empty => simp [holdDescriptor, offerLatchSet]
  | held h =>
    by_cases hard : d.isHard = true
    · by_cases held : h.isHard = true
      · simp [hard, held, countHard]
      · simp [hard, held, holdDescriptor, offerLatchSet]
    · simp [hard, countSoft, state]
  | heldNested h =>
    by_cases hard : d.isHard = true
    · simp [hard, countHard]
    · simp [hard, countSoft, state]

theorem latchTakes_eq_with : latchTakes s d = { s with latch := latchAfter s.latch d, ret := (latchTakes s d).ret } := by
  rw [latchTakes_eq]
  split
  · rw [FaultLatch.offerNotice_eq_with]
  · rfl

theorem latchTakes_latch : (latchTakes s d).latch = latchAfter s.latch d := by rw [latchTakes_eq_with]

end Latch

/-! ## A report (R138, R140, R141) -/

section Report

variable (s : State) (d : Descriptor)

/-- The halts of a report, all told. -/
theorem stopped_takeReport : Stopped (fun l => (s.lane l).state.inPlay) (fun _ => halts s.now) (fun _ x => x) s
    (orders s d) (takeReport s d) := by
  have all := stopped_haltLane (latchTakes s d) (nodup_orders s d)
  rw [← takeReport_eq, latchTakes_eq_with] at all
  have moved : StopFrame s { s with latch := latchAfter s.latch d, ret := (latchTakes s d).ret } :=
    .of_dir ⟨rfl, rfl, rfl, rfl, rfl, rfl, rfl, rfl, rfl⟩ rfl
  exact ⟨all.gone, all.kept, all.rule, all.block, moved.trans all.frame⟩

theorem takeReport_latch : (takeReport s d).latch = latchAfter s.latch d := by
  rw [takeReport_eq, foldl_haltLane_latch, latchTakes_latch]

theorem takeReport_ret : (takeReport s d).ret =
    (((orders s d).filter fun l => (s.lane l).state.inPlay).foldl (afterHalt s) (latchTakes s d)).ret := by
  have sent := foldl_haltLane_ret (latchTakes s d) (nodup_orders s d)
  rw [← takeReport_eq] at sent
  have same : afterHalt (latchTakes s d) = afterHalt s ∧ (latchTakes s d).lane = s.lane := by
    rw [latchTakes_eq_with]
    exact ⟨rfl, rfl⟩
  rw [sent, same.1, same.2]

theorem tapped_ret {w : State} {l : LaneId} {data : Word} {lanes : List LaneId} (taps : w.ret.tapLanes = lanes) :
    (if l ∉ lanes then w
      else if w.ret.taps.length < 32 then { w with ret := { w.ret with taps := w.ret.taps ++ [data] } }
      else { w with ret := { w.ret with tapsDropped := countUp w.ret.tapsDropped } }).ret =
        HandOvers.tapped w.ret l data := by
  subst taps
  unfold HandOvers.tapped
  split
  · rfl
  · split <;> rfl

theorem sendsHalt_congr {v w : State} (ret : v.ret = w.ret) (link : Link) (l : LaneId) (x : Lane) :
    sendsHalt link l x v = sendsHalt link l x w :=
  congrArg (HandOvers.tapped · l _) (FaultRules.offerNotice_ret_congr ret _ _)

theorem sendsHalt_tapLanes (v : State) (link : Link) (l : LaneId) (x : Lane) :
    (sendsHalt link l x v).tapLanes = v.ret.tapLanes := by
  unfold sendsHalt HandOvers.tapped
  rw [FaultRules.offerNotice_ret_eq_with]
  split
  · rfl
  · split <;> rfl

variable {s}

/-- Halts sent one after another, however the state that they are sent from is kept. -/
theorem foldl_afterHalt {ends : State → LaneId → State}
    (is : ∀ v l, v.ret.tapLanes = s.ret.tapLanes → (ends v l).ret = sendsHalt s.link l (s.lane l) v)
    (list : List LaneId) {v w : State} (ret : v.ret = w.ret) (taps : v.ret.tapLanes = s.ret.tapLanes) :
    (list.foldl ends v).ret = (list.foldl (afterHalt s) w).ret := by
  induction list generalizing v w with
  | nil => exact ret
  | cons l rest ih =>
    refine ih ((is v l taps).trans (sendsHalt_congr ret _ _ _)) ?_
    rw [is v l taps, sendsHalt_tapLanes, taps]

theorem rising_orders : (orders s d).Pairwise (· < ·) := by
  unfold orders
  split
  · exact List.pairwise_lt_finRange 24
  · cases d.detail.hardLane <;> simp

end Report

theorem haltWord_eq (x : Lane) :
    (match x.config.fallback with
      | .hold => if x.sentSinceStart then x.lastWord else x.config.restWord
      | .rest => x.config.restWord
      | .live => if x.sentSinceStart then x.lastWord else x.config.restWord) = x.haltWord := by
  unfold Lane.haltWord Lane.holdWord
  cases x.config.fallback <;> rfl

/-- Settles O60: the latch's table, and the halts that a HARD report orders, all told. -/
theorem reportsMoveTheLatch : Obligations.ReportsMoveTheLatch := by
  intro s e t d k ordered placed returned haltWord ends
  have all : Stopped _ _ _ s (orders s d) t := stopped_takeReport s d
  have latch : t.latch = latchAfter k d := takeReport_latch s d
  have soft : e.hardLane = none ↔ ¬d.isHard = true := by rw [isHard_iff, not_not]
  have heldSoft (h : Descriptor) : h.detail.hardLane = none ↔ ¬h.isHard = true := by rw [isHard_iff, not_not]
  have orderedIff (l : LaneId) : l ∈ (orders s d).filter (fun l => (s.lane l).state.inPlay) ↔ ordered l := by
    rw [List.mem_filter, mem_orders, and_comm]
  have gone (r : RuleId) : isReturned s ((orders s d).filter fun l => (s.lane l).state.inPlay) r = true ↔ returned r := by
    simp only [isReturned_iff, orderedIff]
    rfl
  refine ⟨fun empty => ?empty, fun h held => ⟨fun softNow => ?heldSoft, fun hardNow softThen => ?displaced,
      fun hardNow hardThen => ?nested⟩, fun h nested => ?heldNested, fun stays isStays l kept => ?kept,
    fun l halted => ?halted, fun r => ⟨fun isGone => ?returned, fun isKept => ?unreturned⟩, fun b share shares => ?block,
    fun halted rising those => ?sent, all.frame.eq_with⟩
  case empty => rw [latch, latchAfter, empty]
  case heldSoft => rw [latch, latchAfter, held]; exact if_neg (soft.1 softNow)
  case displaced =>
    have hard : d.isHard = true := (isHard_iff d).2 hardNow
    rw [latch, latchAfter, held]
    exact (if_pos hard).trans (if_neg ((heldSoft h).1 softThen))
  case nested =>
    have hard : d.isHard = true := (isHard_iff d).2 hardNow
    rw [latch, latchAfter, held]
    exact (if_pos hard).trans (if_pos ((isHard_iff h).2 hardThen))
  case heldNested =>
    rw [latch, latchAfter, nested]
    by_cases isSoft : e.hardLane = none
    · rw [if_pos isSoft]
      exact if_neg (soft.1 isSoft)
    · rw [if_neg isSoft]
      exact if_pos ((isHard_iff d).2 isSoft)
  case kept =>
    have stayed : ¬(l ∈ orders s d ∧ (s.lane l).state.inPlay = true) := fun both => kept ((orderedIff l).1 (List.mem_filter.2 both))
    rw [all.kept l stayed, ite_self, stays_eq gone isStays]
  case halted =>
    obtain ⟨isOrdered, inPlay⟩ := List.mem_filter.1 ((orderedIff l).2 halted)
    have word : haltWord (s.lane l) = (s.lane l).haltWord := haltWord_eq _
    intro x
    rw [all.gone l isOrdered inPlay, HandOvers.lane_handOver_self, State.lane_setLane_same, word]
    exact congrArg (Lane.handed s.now · _) (entersHalted_eq _)
  case returned =>
    rw [all.rule, if_pos ((gone r).2 isGone)]
    rfl
  case unreturned => rw [all.rule, if_neg (mt (gone r).1 isKept)]
  case block =>
    have parts (l : LaneId) :
        (l ∈ (orders s d).filter (fun l => (s.lane l).state.inPlay) → share l = (s.lane l).counted.count b) ∧
        (l ∉ (orders s d).filter (fun l => (s.lane l).state.inPlay) → share l = 0) := by
      rw [orderedIff]
      exact shares l
    rw [all.block, ← sum_share ((nodup_orders s d).filter _) parts]
  case sent =>
    have same : halted = (orders s d).filter fun l => (s.lane l).state.inPlay := by
      refine List.Perm.eq_of_pairwise' rising ((rising_orders d).filter _) ?_
      exact (List.perm_ext_iff_of_nodup rising.nodup ((nodup_orders s d).filter _)).2 fun l => by rw [those, orderedIff]
    have sends (v : State) (l : LaneId) (taps : v.ret.tapLanes = s.ret.tapLanes) :
        (ends v l).ret = sendsHalt s.link l (s.lane l) v := by
      have offered : (offerNotice v .laneEnded [BitVec.ofNat 32 (l.val + 2 * 2 ^ 8), s.link.currentCycle,
          BitVec.ofNat 32 (s.lane l).counters.ticks]).ret.tapLanes = s.ret.tapLanes := by
        rw [FaultRules.offerNotice_ret_eq_with]
        exact taps
      have word : haltWord (s.lane l) = (s.lane l).haltWord := haltWord_eq _
      rw [sendsHalt, ← word]
      exact tapped_ret offered
    have sent := takeReport_ret s d
    rw [← same] at sent
    refine ⟨fun isPlaced => sent.trans (foldl_afterHalt sends halted ?_ ?_).symm,
      fun notPlaced => sent.trans (foldl_afterHalt sends halted ?_ rfl).symm⟩
    · rw [latch, latchTakes_eq, if_pos ((places_iff s d).2 isPlaced)]
    · rw [FaultRules.offerNotice_ret_eq_with]
    · rw [latchTakes_eq, if_neg (mt (places_iff s d).1 notPlaced)]

end Sys2Proof.Reports
end

section
/-! PROOFS. START_LANES (R4 to R6, R34, R38, R51, R94; log 11, log 44). -/

namespace Sys2Proof.LaneStarts

open Sys2Proof.Machine Sys2Proof.LaneStops

/-! ## The blocks that a lane counts on (R38) -/

theorem mem_blocksToCount {s : State} {x : Lane} {b : BlockId} : b ∈ blocksToCount s x ↔
    (s.block b).state ≠ .vacant ∧ ∃ e ∈ x.playlist, e.entry.block = b := by
  rw [blocksToCount, playlistBlocks, List.mem_filter, List.mem_eraseDups, List.mem_map, bne_iff_ne, and_comm]

theorem blocksToCount_eq (s : State) (x : Lane) : blocksToCount s x =
    (x.playlist.map fun e => e.entry.block).eraseDups.filter fun b => (s.block b).state ≠ .vacant := by
  refine congrArg (List.filter · _) (funext fun b => ?_)
  rw [Bool.eq_iff_iff, bne_iff_ne, decide_eq_true_iff]

theorem nodup_blocksToCount (s : State) (x : Lane) : (blocksToCount s x).Nodup :=
  (Reporting.nodup_eraseDups _).filter _

theorem blocksToCount_congr {s u : State} (blocks : ∀ b, (u.block b).state = (s.block b).state) (x : Lane) :
    blocksToCount u x = blocksToCount s x := by
  simp only [blocksToCount, blocks]

theorem addUse_cons (s : State) (b : BlockId) (rest : List BlockId) :
    addUse s (b :: rest) = addUse (s.setBlock b { s.block b with inUse := (s.block b).inUse + 1 }) rest :=
  List.foldl_cons ..

theorem block_addUse (blocks : List BlockId) (s : State) (c : BlockId) :
    (addUse s blocks).block c = { s.block c with inUse := (s.block c).inUse + blocks.count c } := by
  induction blocks generalizing s with
  | nil => rfl
  | cons b rest ih =>
    rw [addUse_cons, ih, State.block_setBlock]
    by_cases same : b = c
    · subst same
      rw [if_pos rfl, List.count_cons_self]
      have more : (s.block b).inUse + 1 + rest.count b = (s.block b).inUse + (rest.count b + 1) := by omega
      exact congrArg (fun n => { s.block b with inUse := n }) more
    · rw [if_neg same, List.count_cons_of_ne same]

theorem lane_addUse (blocks : List BlockId) (s : State) (l : LaneId) : (addUse s blocks).lane l = s.lane l := by
  induction blocks generalizing s with
  | nil => rfl
  | cons b rest ih => rw [addUse_cons, ih, State.lane_setBlock]

theorem rule_addUse (blocks : List BlockId) (s : State) (r : RuleId) : (addUse s blocks).rule r = s.rule r := by
  induction blocks generalizing s with
  | nil => rfl
  | cons b rest ih => rw [addUse_cons, ih]; rfl

theorem stopFrame_addUse (blocks : List BlockId) (s : State) : StopFrame s (addUse s blocks) := by
  induction blocks generalizing s with
  | nil => exact .refl s
  | cons b rest ih =>
    rw [addUse_cons]
    exact .trans ⟨tickFrame_setBlock s b _, rfl⟩ (ih _)

theorem silent_addUse (blocks : List BlockId) (s : State) : Silent s (addUse s blocks) :=
  silent_foldl (op := fun s b => s.setBlock b { s.block b with inUse := (s.block b).inUse + 1 })
    (fun _ _ => ⟨rfl, rfl⟩) blocks s

/-! ## The lane as it enters PRIMED (R5, R51) -/

theorem prime_eq (start : Word) (late : Bool) (blocks : List BlockId) (x : Lane) :
    x.prime start late blocks = { x with
      state := .primed
      startCycle := start
      late := late
      pacing := .stopped
      markCount := 0
      sentSinceStart := false
      prev := none
      history := []
      gate := if x.config.gateSeed = 0 then 1 else x.config.gateSeed
      debt := 0
      fetchPos := if x.config.source = .replay then
          match x.playlist with
          | [] => .none
          | e :: _ => .at ⟨0, 1, if e.entry.direction = .forward then e.entry.firstRow else e.entry.lastRow⟩
        else .none
      counted := blocks } := by
  have position : x.startReplay.fetchPos = if x.config.source = .replay then
      match x.playlist with
      | [] => .none
      | e :: _ => .at ⟨0, 1, if e.entry.direction = .forward then e.entry.firstRow else e.entry.lastRow⟩
    else .none := by
    unfold Lane.startReplay visitStart
    cases x.playlist with
    | nil => simp
    | cons e rest =>
      have row : startRow e.entry = if e.entry.direction = .forward then e.entry.firstRow else e.entry.lastRow := by
        unfold startRow
        cases e.entry.direction <;> rfl
      simp [row]
  exact congrArg (fun pos => { x.prime start late blocks with fetchPos := pos }) position

/-! ## The checks (R4) -/

theorem startCheck_eq (s : State) (l : LaneId) : startCheck s l =
    if (s.lane l).state ≠ .off then .laneBusy
    else if (s.lane l).port.present = false then .noPort
    else if (s.lane l).config.source = .replay ∧ ((s.lane l).playlist = [] ∨
        ∃ e ∈ (s.lane l).playlist, (s.block e.entry.block).state ≠ .ready) then .notReady
    else .done := by
  have unready : ((s.lane l).playlist.any fun e => (s.block e.entry.block).state != .ready) = true ↔
      ∃ e ∈ (s.lane l).playlist, (s.block e.entry.block).state ≠ .ready := by
    simp only [List.any_eq_true, bne_iff_ne]
  unfold startCheck
  dsimp only
  by_cases off : (s.lane l).state = .off
  · rw [if_neg (not_not.2 off), if_neg (not_not.2 off)]
    cases present : (s.lane l).port.present with
    | false => rfl
    | true =>
      by_cases replay : (s.lane l).config.source = .replay
      · by_cases empty : (s.lane l).playlist = []
        · simp [replay, empty]
        · simp only [replay, List.isEmpty_iff, empty, unready, Bool.and_eq_true, decide_eq_true_eq]
          simp
      · simp [replay]
  · rw [if_pos off, if_pos off]

/-! ## One lane (R5, R38, R94) -/

/-- The ARMED IMMEDIATE rules that target the lanes `taken`. -/
def Starts (s : State) (taken : List LaneId) (r : RuleId) : Prop :=
  (s.rule r).state = .armed ∧ (s.rule r).fields.trigger = .immediate ∧ ∃ l ∈ taken, (s.rule r).fields.lane = l.val

theorem starts_append {s : State} {taken : List LaneId} {l : LaneId} {r : RuleId} : Starts s (taken ++ [l]) r ↔
    Starts s taken r ∨ Starts s [l] r := by
  simp only [Starts, List.mem_append, or_and_right, exists_or, and_or_left]

section Prime

variable (start : Word) (late : Bool) (s : State) (l : LaneId)

/-- The state in which the rules of lane `l` are judged: the lane has entered PRIMED. -/
def entered : State := (addUse s (blocksToCount s (s.lane l))).modLane l
  (Lane.prime start late (blocksToCount s (s.lane l)))

theorem primeLane_eq : primeLane start late s l = (entered start late s l).mapRules fun _ r =>
    if r.fields.lane = l.val then judgeImmediate (entered start late s l) r else r := rfl

theorem lane_primeLane (k : LaneId) : (primeLane start late s l).lane k =
    if l = k then (s.lane l).prime start late (blocksToCount s (s.lane l)) else s.lane k := by
  rw [primeLane_eq, State.lane_mapRules, entered, State.lane_modLane]
  simp only [lane_addUse]

theorem rule_entered (r : RuleId) : (entered start late s l).rule r = s.rule r := by
  rw [entered, State.rule_modLane, rule_addUse]

theorem rule_primeLane_started {r : RuleId} (starts : Starts s [l] r) :
    (primeLane start late s l).rule r = (s.rule r).trigger false := by
  obtain ⟨armed, immediate, k, among, target⟩ := starts
  obtain rfl := List.mem_singleton.1 among
  have primed : ((entered start late s k).lane k).state = .primed := by
    rw [entered, State.lane_modLane_same]
    rfl
  have takes : canTake (entered start late s k) (s.rule r) = true :=
    FaultRules.canTake_iff.2 ⟨armed, (FaultRules.laneInPlay_iff _ _).2 ⟨k, target, .inl primed⟩⟩
  rw [primeLane_eq, State.rule_mapRules, rule_entered, if_pos target, FaultRules.judgeImmediate_eq,
    if_pos ⟨takes, immediate⟩]

theorem rule_primeLane_still {r : RuleId} (still : ¬Starts s [l] r) : (primeLane start late s l).rule r = s.rule r := by
  rw [primeLane_eq, State.rule_mapRules, rule_entered]
  split
  · next target =>
    rw [FaultRules.judgeImmediate_eq]
    exact if_neg fun ⟨takes, immediate⟩ =>
      still ⟨(FaultRules.canTake_iff.1 takes).1, immediate, l, List.mem_singleton_self l, target⟩
  · rfl

theorem block_primeLane (b : BlockId) : (primeLane start late s l).block b = { s.block b with
    inUse := (s.block b).inUse + if b ∈ blocksToCount s (s.lane l) then 1 else 0 } := by
  have dir : (primeLane start late s l).dir = (addUse s (blocksToCount s (s.lane l))).dir := by
    rw [primeLane_eq, State.mapRules_dir]
    rfl
  rw [block_of_dir dir, block_addUse, (nodup_blocksToCount s (s.lane l)).count]

theorem stopFrame_primeLane : StopFrame s (primeLane start late s l) :=
  (stopFrame_addUse _ s).trans <| StopFrame.trans (.of_dir (tickFrame_modLane _ l _) rfl) <|
    .of_dir (tickFrame_mapRules _ _) (State.mapRules_dir ..)

theorem silent_primeLane : Silent s (primeLane start late s l) :=
  (silent_addUse _ s).trans <| Silent.trans ⟨rfl, rfl⟩ ⟨State.mapRules_ret .., State.mapRules_latch ..⟩

end Prime

/-! ## A number of lanes -/

/-- The lanes `named` have entered PRIMED, one after another. -/
structure Primed (start : Word) (late : Bool) (s : State) (named : List LaneId) (t : State) : Prop where
  taken : ∀ l ∈ named, t.lane l = (s.lane l).prime start late (blocksToCount s (s.lane l))
  kept : ∀ l ∉ named, t.lane l = s.lane l
  started : ∀ r, Starts s named r → t.rule r = (s.rule r).trigger false
  still : ∀ r, ¬Starts s named r → t.rule r = s.rule r
  block : ∀ b, t.block b = { s.block b with
    inUse := (s.block b).inUse + (named.filter fun l => b ∈ blocksToCount s (s.lane l)).length }
  frame : StopFrame s t
  silent : Silent s t

section Starts

variable {start : Word} {late : Bool} {s u : State} {named : List LaneId} {l : LaneId}

theorem primed_nil : Primed start late s [] s where
  taken l among := by cases among
  kept l _ := rfl
  started r starts := by
    obtain ⟨-, -, l, among, -⟩ := starts
    cases among
  still r _ := rfl
  block b := by simp
  frame := .refl s
  silent := .refl s

/-- One more lane enters PRIMED. -/
theorem Primed.prime (h : Primed start late s named u) (new : l ∉ named) :
    Primed start late s (named ++ [l]) (primeLane start late u l) := by
  have lane := h.kept l new
  have counts : blocksToCount u (u.lane l) = blocksToCount s (s.lane l) := by
    rw [lane]
    exact blocksToCount_congr (fun b => by rw [h.block]) _
  have rule {r : RuleId} (before : ¬Starts s named r) : Starts u [l] r ↔ Starts s [l] r := by
    simp only [Starts, h.still r before]
  refine ⟨fun k isNamed => ?taken, fun k out => ?kept, fun r starts => ?started, fun r still => ?still, fun b => ?block,
    h.frame.trans (stopFrame_primeLane ..), h.silent.trans (silent_primeLane ..)⟩
  case taken =>
    rw [lane_primeLane]
    by_cases same : l = k
    · rw [if_pos same, counts, lane, same]
    · rw [if_neg same, h.taken k (by simpa [Ne.symm same] using isNamed)]
  case kept =>
    simp only [List.mem_append, List.mem_singleton, not_or] at out
    rw [lane_primeLane, if_neg (Ne.symm out.2), h.kept k out.1]
  case started =>
    by_cases before : Starts s named r
    · have triggered : ¬Starts u [l] r := by
        rintro ⟨armed, -⟩
        rw [h.started r before] at armed
        cases armed
      rw [rule_primeLane_still _ _ _ _ triggered, h.started r before]
    · have now : Starts s [l] r := (starts_append.1 starts).resolve_left before
      rw [rule_primeLane_started _ _ _ _ ((rule before).2 now), h.still r before]
  case still =>
    obtain ⟨before, now⟩ := not_or.1 (mt starts_append.2 still)
    rw [rule_primeLane_still _ _ _ _ (mt (rule before).1 now), h.still r before]
  case block =>
    rw [block_primeLane, h.block, counts, List.filter_append, List.length_append, ← Nat.add_assoc]
    by_cases among : b ∈ blocksToCount s (s.lane l)
    · rw [if_pos among, List.filter_cons_of_pos (by simpa using among)]
      rfl
    · rw [if_neg among, List.filter_cons_of_neg (by simpa using among)]
      rfl

/-- The lanes `named` are taken one after another. -/
theorem primed_foldl (distinct : named.Nodup) : Primed start late s named (named.foldl (primeLane start late) s) := by
  induction named using List.reverseRecOn with
  | nil => exact primed_nil
  | append_singleton before l ih =>
    obtain ⟨distinct, -, apart⟩ := List.nodup_append.1 distinct
    have new : l ∉ before := fun among => apart l among l (by simp) rfl
    rw [List.foldl_append, List.foldl_cons, List.foldl_nil]
    exact (ih distinct).prime new

end Starts

/-! ## START_LANES (R4) -/

section Command

variable {p : Place} {u : State}

theorem runStartLanes_refused (bad : param p.payload 0 = 0 ∨ 2 ^ 24 ≤ (param p.payload 0).toNat) :
    runStartLanes p u = (u, .reply .badValue []) := by
  rw [runStartLanes, maskLanes_none bad]
  rfl

theorem runStartLanes_taken {named : List LaneId} (lanes : maskLanes (param p.payload 0) = some named) :
    runStartLanes p u =
      ((named.filter fun l => startCheck u l = .done).foldl
          (primeLane (param p.payload 1) (startReached u.link.currentCycle (param p.payload 1))) u,
        .reply
          (if named.filter (fun l => startCheck u l = .done) = [] then (named.map (startCheck u)).headD .badValue
            else if startReached u.link.currentCycle (param p.payload 1) then .late else .done)
          (named.map fun l => numberWord (startCheck u l).code)) := by
  simp only [runStartLanes, lanes, List.isEmpty_iff, List.map_map]
  rfl

end Command

/-- Settles O44: the checks decide who is taken, and those enter PRIMED one after another. -/
theorem startPrimesTheLanesThatPass : Obligations.StartPrimesTheLanesThatPass := by
  intro s p rest headed carried u
  have settled : u = settle s := rfl
  clear_value u
  intro mask start late named result taken
  have answers {v : State} {status : Status} {words : List Word} (run : runStartLanes p u = (v, .reply status words))
      (cmd : v.cmd = u.cmd) : exec .startLanes s = .next (replied v p rest ⟨status, p.tag, p.code, words⟩) :=
    takeRecord_reply headed carried (isCommand_carriedOut carried) (settled ▸ run) (settled ▸ congrArg _ cmd)
  refine ⟨fun bad => answers (runStartLanes_refused bad) rfl, fun some low => ?_⟩
  have checks : startCheck u = result := funext fun l => startCheck_eq u l
  have isLate : startReached u.link.currentCycle start = late := rfl
  have distinct : taken.Nodup := ((List.nodup_finRange 24).filter _).filter _
  have run := runStartLanes_taken (p := p) (u := u) (maskLanes_some some low)
  have all : Primed start late u taken (taken.foldl (primeLane start late) u) := primed_foldl distinct
  rw [checks] at run
  have counts (b : BlockId) : (taken.filter fun l => b ∈ blocksToCount u (u.lane l)) = taken.filter fun l =>
      (u.block b).state ≠ .vacant ∧ ∃ e ∈ (u.lane l).playlist, e.entry.block = b := by
    simp only [mem_blocksToCount]
  refine ⟨taken.foldl (primeLane start late) u, answers run all.frame.tick.cmd, all.kept, fun l isTaken => ?lane,
    fun r => ?rule, fun b => ?block, all.frame.eq_with_silent all.silent⟩
  case lane =>
    have primed := congrArg ((u.lane l).prime start late) (blocksToCount_eq u (u.lane l))
    exact (all.taken l isTaken).trans (primed.trans (prime_eq ..))
  case rule =>
    split
    · next starts => exact (all.started r starts).trans rfl
    · next still => exact all.still r still
  case block => rw [all.block, counts]

end Sys2Proof.LaneStarts
end

section
/-! PROOFS. The cycle mark: the link, the order of the takers, and each taker's part (R6, R14, R15, R95, R99, R100,
R151, R152; log 8, log 38, log 39, log 44, log 46). -/

namespace Sys2Proof.CycleMarks

open Sys2Proof.Machine

/-! ## The link (R151, R152) -/

/-- The link after a mark of this number at time `now`. -/
def markedLink (k : Link) (number : Word) (now : Nat) : Link :=
  { k with
    state := .up
    currentCycle := number
    lastMark := now
    cycleJumps := if k.state ≠ .waiting ∧ number ≠ k.currentCycle + 1 then countUp k.cycleJumps else k.cycleJumps }

theorem offerNotice_link (u : State) (k : Link) (kind : NoticeKind) (words : List Word) :
    offerNotice { u with link := k } kind words = { offerNotice u kind words with link := k } := by
  have ret : (offerNotice { u with link := k } kind words).ret = (offerNotice u kind words).ret :=
    FaultRules.offerNotice_ret_congr (s := u) (t := { u with link := k }) rfl kind words
  rw [FaultLatch.offerNotice_eq_with, ret, FaultLatch.offerNotice_eq_with u]

/-- The link's part of a mark. -/
theorem linkTakesMark_checkJump (u : State) (number : Word) : linkTakesMark (checkJump u number) number =
    if u.link.state ≠ .waiting ∧ number ≠ u.link.currentCycle + 1 then
      { offerNotice u .cycleJump [u.link.currentCycle + 1, number] with link := markedLink u.link number u.now }
    else { u with link := markedLink u.link number u.now } := by
  by_cases jumps : u.link.state ≠ .waiting ∧ number ≠ u.link.currentCycle + 1
  · have passes : ¬(decide (u.link.state = .waiting) || decide (number = u.link.currentCycle + 1)) = true := by
      simpa using jumps
    rw [if_pos jumps, checkJump, if_neg passes, offerNotice_link, FaultLatch.offerNotice_eq_with, markedLink,
      if_pos jumps]
    rfl
  · have stops : (decide (u.link.state = .waiting) || decide (number = u.link.currentCycle + 1)) = true := by
      simp only [Bool.or_eq_true, decide_eq_true_eq]
      tauto
    rw [if_neg jumps, checkJump, if_pos stops, linkTakesMark, markedLink, if_neg jumps]

/-! ## The order (log 8) -/

section FirstPlaces

variable {seen : List (Option LaneId)} {t : MarkTaker} {list rest : List MarkTaker}

theorem firstPlaces_seen (old : t.taker ∈ seen) : firstPlaces seen (t :: list) = firstPlaces seen list := by
  rw [firstPlaces, if_pos (List.contains_iff_mem.2 old)]

theorem firstPlaces_new (new : t.taker ∉ seen) :
    firstPlaces seen (t :: list) = t :: firstPlaces (t.taker :: seen) list := by
  rw [firstPlaces, if_neg (mt List.contains_iff_mem.1 new)]

theorem mem_of_mem_firstPlaces (list : List MarkTaker) :
    ∀ seen : List (Option LaneId), ∀ x ∈ firstPlaces seen list, x ∈ list := by
  induction list with
  | nil => exact fun _ x among => among
  | cons t rest ih =>
    intro seen x among
    by_cases old : t.taker ∈ seen
    · rw [firstPlaces_seen old] at among
      exact List.mem_cons_of_mem _ (ih _ x among)
    · rw [firstPlaces_new old, List.mem_cons] at among
      exact List.mem_cons.2 (among.imp_right (ih _ x))

/-- No taker stands twice in the order, nor one that has been seen. -/
theorem nodup_firstPlaces (list : List MarkTaker) : ∀ seen : List (Option LaneId),
    ((firstPlaces seen list).map MarkTaker.taker).Nodup ∧ ∀ x ∈ seen, x ∉ (firstPlaces seen list).map MarkTaker.taker := by
  induction list with
  | nil => exact fun seen => ⟨List.nodup_nil, fun x _ => List.not_mem_nil⟩
  | cons t rest ih =>
    intro seen
    by_cases old : t.taker ∈ seen
    · rw [firstPlaces_seen old]
      exact ih seen
    · obtain ⟨distinct, apart⟩ := ih (t.taker :: seen)
      rw [firstPlaces_new old, List.map_cons]
      refine ⟨List.nodup_cons.2 ⟨apart _ (List.mem_cons_self ..), distinct⟩, fun x isSeen => ?_⟩
      rw [List.mem_cons, not_or]
      exact ⟨fun same => old (same ▸ isSeen), apart x (List.mem_cons_of_mem _ isSeen)⟩

/-- Every taker of the list is seen or stands in the order. -/
theorem mem_firstPlaces (list : List MarkTaker) : ∀ (seen : List (Option LaneId)) (x : Option LaneId),
    x ∈ list.map MarkTaker.taker → x ∈ seen ∨ x ∈ (firstPlaces seen list).map MarkTaker.taker := by
  induction list with
  | nil => exact fun seen x among => absurd among List.not_mem_nil
  | cons t rest ih =>
    intro seen x among
    by_cases old : t.taker ∈ seen
    · rw [firstPlaces_seen old]
      rcases List.mem_cons.1 among with rfl | later
      · exact .inl old
      · exact ih seen x later
    · rw [firstPlaces_new old, List.map_cons, List.mem_cons]
      rcases List.mem_cons.1 among with rfl | later
      · exact .inr (.inl rfl)
      · rcases ih (t.taker :: seen) x later with isSeen | inOrder
        · rcases List.mem_cons.1 isSeen with rfl | isSeen
          · exact .inr (.inl rfl)
          · exact .inl isSeen
        · exact .inr (.inr inOrder)

/-- New takers, each once, stand first and as they are named. -/
theorem prefix_firstPlaces (list rest : List MarkTaker) : ∀ seen : List (Option LaneId),
    (list.map MarkTaker.taker).Nodup → (∀ x ∈ list.map MarkTaker.taker, x ∉ seen) →
      list <+: firstPlaces seen (list ++ rest) := by
  induction list with
  | nil => exact fun seen _ _ => List.nil_prefix
  | cons t more ih =>
    intro seen distinct new
    obtain ⟨apart, distinct⟩ := List.nodup_cons.1 distinct
    rw [List.cons_append, firstPlaces_new (new _ (List.mem_cons_self ..)), List.prefix_cons_inj]
    refine ih _ distinct fun x among => ?_
    rw [List.mem_cons, not_or]
    exact ⟨fun same => apart (same ▸ among), new x (List.mem_cons_of_mem _ among)⟩

end FirstPlaces

/-- A lane that the mark's order takes is named, or ticks with nothing taken within its tick. -/
theorem takesNoRecord_of_mem_markOrder {order : List MarkTaker}
    (none : ∀ l w, MarkTaker.lane l w ∈ order → w.takesNoRecord) {l : LaneId} {w : Within}
    (among : MarkTaker.lane l w ∈ markOrder order) : w.takesNoRecord := by
  rcases List.mem_append.1 (mem_of_mem_firstPlaces _ _ _ among) with named | unnamed
  · exact none l w named
  · simp only [List.mem_cons, reduceCtorEq, List.mem_map, MarkTaker.lane.injEq, false_or] at unnamed
    obtain ⟨k, -, -, rfl⟩ := unnamed
    exact ⟨rfl, List.not_mem_nil, List.not_mem_nil⟩

/-! ## The takers -/

theorem eventFrame_takers (number : Word) (takers : List MarkTaker) (s : State) :
    EventFrame s (takers.foldl (takeMark (tickWith fun _ v => v) number) s) :=
  eventFrame_foldl _ (fun s t => takeMark_keeps id EventFrame.trans (fun _ => .refl) number s t) takers s

theorem tickFrame_takers (number : Word) (takers : List MarkTaker)
    (none : ∀ l w, MarkTaker.lane l w ∈ takers → w.takesNoRecord) (s : State) :
    TickFrame s (takers.foldl (takeMark (tickWith fun _ v => v) number) s) := by
  induction takers generalizing s with
  | nil => exact .refl s
  | cons t rest ih =>
    refine TickFrame.trans ?_ (ih (fun l w among => none l w (List.mem_cons_of_mem _ among)) _)
    cases t with
    | ruleTable => exact tickFrame_ruleTableMark s number
    | lane l w =>
      have ticks := tickFrame_tickWith w (none l w (List.mem_cons_self ..))
      exact tickFrame_laneTakesMark _ ticks s l number

section LaneTaker

variable {tick : State → LaneId → State} {number : Word} {s : State} {l : LaneId}

theorem laneTakesMark_primed (primed : (s.lane l).state = .primed) : laneTakesMark tick s l number =
    if (s.lane l).startsAt number then tick (s.setLane l ((s.lane l).startRunning s.now)) l else s := by
  simp only [laneTakesMark, primed]

theorem laneTakesMark_counting {k : Nat} (primed : (s.lane l).state ≠ .primed) (pacing : (s.lane l).pacing = .marks k) :
    laneTakesMark tick s l number =
      if ((s.lane l).markCount + 1) % k = 0 then
        tick (s.setLane l { s.lane l with markCount := (s.lane l).markCount + 1 }) l
      else s.setLane l { s.lane l with markCount := (s.lane l).markCount + 1 } := by
  unfold laneTakesMark
  cases state : (s.lane l).state with
  | primed => exact absurd state primed
  | _ => simp only [state, pacing]

theorem laneTakesMark_other (primed : (s.lane l).state ≠ .primed) (pacing : ∀ k, (s.lane l).pacing ≠ .marks k) :
    laneTakesMark tick s l number = s := by
  unfold laneTakesMark
  cases state : (s.lane l).state with
  | primed => exact absurd state primed
  | _ =>
    cases pace : (s.lane l).pacing with
    | marks k => exact absurd pace (pacing k)
    | _ => simp only [state, pace]

theorem startsAt_iff (number : Word) (x : Lane) :
    x.startsAt number = true ↔ x.late = true ∨ (number - x.startCycle).toNat ≤ 2 ^ 31 := by
  simp [Lane.startsAt, startReached]

end LaneTaker

section RuleTaker

variable {number : Word} {u : State} {x : Rule}

theorem markTriggers_iff : x.markTriggers number = true ↔
    ∃ n, x.fields.trigger = .atCycle n ∧ (x.late = true ∨ (number - n).toNat < 2 ^ 31) := by
  unfold Rule.markTriggers
  cases x.fields.trigger <;> simp [cycleReached]

theorem countMark_delays (unit : x.fields.unit = .cycles) (triggered : x.state = .triggered) (left : 0 < x.delayCount) :
    x.countMark = { x with delayCount := x.delayCount - 1 } := by
  simp [Rule.countMark, unit, triggered, left]

theorem countMark_lasts (unit : x.fields.unit = .cycles) (active : x.state = .active) (left : 0 < x.durationCount) :
    x.countMark = { x with durationCount := x.durationCount - 1, endDue := decide (x.durationCount = 1) } := by
  simp [Rule.countMark, unit, active, left]

theorem countMark_idle (delays : ¬(x.fields.unit = .cycles ∧ x.state = .triggered ∧ 0 < x.delayCount))
    (lasts : ¬(x.fields.unit = .cycles ∧ x.state = .active ∧ 0 < x.durationCount)) : x.countMark = x := by
  unfold Rule.countMark
  by_cases unit : x.fields.unit = .cycles
  · have noDelay : ¬(decide (x.state = .triggered) && decide (0 < x.delayCount)) = true := by
      simpa [unit] using delays
    have noEnd : ¬(decide (x.state = .active) && decide (0 < x.durationCount)) = true := by
      simpa [unit] using lasts
    rw [if_pos unit, if_neg noDelay, if_neg noEnd]
  · rw [if_neg unit]

end RuleTaker

/-- Settles O11: the link, the order, the lane's part and the Rule Table's part. -/
theorem cycleMarkMovesTheLink : Obligations.CycleMarkMovesTheLink := by
  refine ⟨fun wait number order s high => ?link, fun order => ?order, fun tick number s l w => ?lane,
    fun tick number s => ?rules⟩
  case link =>
    intro u link marked
    have settled := tickFrame_settle (s.pass wait)
    have sameLink : u.link = s.link := settled.link
    have sameNow : u.now = s.now + wait := settled.now
    have isMarked : linkTakesMark (checkJump u number) number = marked := by
      have isLink : markedLink u.link number u.now = link := by
        rw [sameLink, sameNow]
        rfl
      rw [linkTakesMark_checkJump, isLink, sameLink]
    have frame : EventFrame (s.pass wait) marked := by
      rw [← isMarked]
      exact (settled.event.trans (eventFrame_checkJump u number)).trans ⟨rfl, rfl, rfl, rfl, rfl, rfl, rfl⟩
    have all := frame.trans (eventFrame_takers number (markOrder order) marked)
    have row : exec (.cycleMark wait number order) s = .next (cycleMark (fun _ v => v) number order (s.pass wait)) :=
      fromOutside_high wait (cycleMark (fun _ v => v) number order) high
    refine ⟨(markOrder order).foldl (takeMark (tickWith fun _ v => v) number) marked, ?_, all.now, rfl, fun none => ?_,
      all.curves, all.tmc, all.mem, all.resetLow.trans high, all.freeCount, all.pending⟩
    · rw [row, ← isMarked]
      rfl
    · have ticks := tickFrame_takers number (markOrder order)
        (fun l w among => takesNoRecord_of_mem_markOrder none among) marked
      have cmd : marked.cmd = s.cmd := by
        have offered := tickFrame_offerNotice u .cycleJump [s.link.currentCycle + 1, number]
        simp only [marked]
        split
        · exact offered.cmd.trans settled.cmd
        · exact settled.cmd
      have isLink : marked.link = link := by
        simp only [marked]
        split <;> rfl
      exact ⟨ticks.link.trans isLink, ticks.cmd.trans cmd⟩
  case order =>
    intro takers
    refine ⟨(nodup_firstPlaces _ []).1, fun x => ?_, fun distinct =>
      prefix_firstPlaces order _ [] distinct fun _ _ => List.not_mem_nil⟩
    refine (mem_firstPlaces _ [] x ?_).resolve_left List.not_mem_nil
    cases x with
    | none => simp [MarkTaker.taker]
    | some l => simp [MarkTaker.taker, laneNumbers]
  case lane =>
    intro x t
    refine ⟨fun primed => ⟨fun reached => ?_, fun early ahead => ?_⟩, fun primed => ⟨fun k pacing => ?_, fun pacing => ?_⟩⟩
    · have started : t = tick w (s.setLane l (x.startRunning s.now)) l :=
        (laneTakesMark_primed primed).trans (if_pos ((startsAt_iff number x).2 reached))
      refine ⟨fun timed => ?_, fun cycle => ?_⟩
      · rw [started, Lane.startRunning, timed]
      · rw [started, Lane.startRunning, cycle]
    · have stays : ¬x.startsAt number = true := by
        rw [startsAt_iff, early]
        simpa using ahead
      exact (laneTakesMark_primed primed).trans (if_neg stays)
    · have counting := laneTakesMark_counting (tick := tick w) (number := number) primed pacing
      exact ⟨fun multiple => counting.trans (if_pos multiple), fun between => counting.trans (if_neg between)⟩
    · exact laneTakesMark_other primed pacing
  case rules =>
    intro u t
    refine ⟨FaultRules.mapRules_eq_with u _, fun r => ?_⟩
    intro x reached delays lasts
    have rule : t.rule r = if canTake u x && x.markTriggers number then x.trigger false else x.countMark :=
      State.rule_mapRules _ _ r
    have triggers : (canTake u x && x.markTriggers number) = true ↔ reached := by
      rw [Bool.and_eq_true, FaultRules.canTake_iff, markTriggers_iff, and_assoc]
    refine ⟨fun isReached => ?_, fun isDelay => ?_, fun isLast => ?_, fun notReached notDelay notLast => ?_⟩
    · rw [rule, if_pos (triggers.2 isReached)]
      rfl
    · obtain ⟨unit, triggered, left⟩ := isDelay
      have apart : ¬reached := fun ⟨armed, _⟩ => nomatch armed.symm.trans triggered
      rw [rule, if_neg (mt triggers.1 apart), countMark_delays unit triggered left]
    · obtain ⟨unit, active, left⟩ := isLast
      have apart : ¬reached := fun ⟨armed, _⟩ => nomatch armed.symm.trans active
      rw [rule, if_neg (mt triggers.1 apart), countMark_lasts unit active left]
    · rw [rule, if_neg (mt triggers.1 notReached), countMark_idle notDelay notLast]

end Sys2Proof.CycleMarks
end

section
/-! PROOFS. Timed ticks: what every tick keeps of a lane, and the steps of a tick in one piece (R14, R16, R126, R137,
R138, R147; log 10, log 23, log 43). -/

namespace Sys2Proof.TimedTicks

open Sys2Proof.Machine Sys2Proof.LaneMoves

/-! ## What the moves of a lane keep -/

/-- A lane that no longer ticks, whatever ticks, reports and ends make of it. -/
def Rests (x : Lane) : Prop := x.state = .off ∨ (x.state = .halted ∧ x.config.fallback ≠ .live)

/-- What a move keeps: the configuration, the playlist, and the tick timer of a lane that goes on ticking. -/
structure Grid (x y : Lane) : Prop where
  config : y.config = x.config
  playlist : y.playlist = x.playlist
  rests : Rests x → Rests y
  pacing : y.pacing = x.pacing ∨ Rests y

theorem Grid.refl (x : Lane) : Grid x x := ⟨rfl, rfl, id, .inl rfl⟩

theorem Grid.trans {x y z : Lane} (a : Grid x y) (b : Grid y z) : Grid x z where
  config := b.config.trans a.config
  playlist := b.playlist.trans a.playlist
  rests := b.rests ∘ a.rests
  pacing := by
    rcases b.pacing with same | resting
    · rw [same]
      exact a.pacing.imp_right b.rests
    · exact .inr resting

theorem Grid.of_same {x y : Lane} (config : y.config = x.config) (playlist : y.playlist = x.playlist)
    (state : y.state = x.state) (pacing : y.pacing = x.pacing) : Grid x y :=
  ⟨config, playlist, by rw [Rests, Rests, state, config]; exact id, .inl pacing⟩

theorem grid_handed (x : Lane) (now : Nat) (w : PortWord) : Grid x (x.handed now w) := by
  unfold Lane.handed
  dsimp only
  split <;> exact .of_same rfl rfl rfl rfl

theorem grid_move {anew : Prop} {x y : Lane} (move : LaneMove anew x y) : Grid x y := by
  cases move with
  | handed _ now w => exact grid_handed x now w
  | off => exact ⟨rfl, rfl, fun _ => .inl rfl, .inr (.inl rfl)⟩
  | reset => exact ⟨rfl, rfl, fun _ => .inl rfl, .inr (.inl rfl)⟩
  | halted inPlay =>
    refine ⟨rfl, rfl, fun rests => ?_, ?_⟩
    · rcases rests with off | ⟨halted, -⟩
      · rw [off] at inPlay
        cases inPlay
      · rw [halted] at inPlay
        cases inPlay
    · by_cases live : x.config.fallback = .live
      · exact .inl (if_pos live)
      · exact .inr (.inr ⟨rfl, live⟩)
  | saturated _ clamped => cases clamped <;> exact .of_same rfl rfl rfl rfl
  | _ => exact .of_same rfl rfl rfl rfl

theorem grid_moves {anew : Prop} {x y : Lane} (moves : Moves anew x y) : Grid x y := by
  induction moves with
  | refl => exact .refl x
  | tail _ move ih => exact ih.trans (grid_move move)

theorem not_rests_of_takesTicks {x : Lane} (ticks : x.takesTicks = true) : ¬Rests x := by
  unfold Lane.takesTicks at ticks
  rintro (off | ⟨halted, other⟩)
  · simp [off] at ticks
  · simp [halted, other] at ticks

/-- Where no tick is counted and nothing is reset, TICKS stands. -/
theorem ticks_move {x y : Lane} (move : LaneMove False x y) : y.counters.ticks = x.counters.ticks := by
  cases move with
  | handed _ now w =>
    unfold Lane.handed
    dsimp only
    split <;> rfl
  | saturated _ clamped => cases clamped <;> rfl
  | consumed =>
    unfold Lane.consumeLive
    dsimp only
    split <;> rfl
  | counted allowed => exact allowed.elim
  | reset allowed => exact allowed.elim
  | _ => rfl

theorem ticks_moves {x y : Lane} (moves : Moves False x y) : y.counters.ticks = x.counters.ticks := by
  induction moves with
  | refl => rfl
  | tail _ move ih => exact (ticks_move move).trans ih

/-! ## The ends before a tick (log 9) -/

theorem endFrame_settleBut (held : List RuleId) (s : State) : FaultRules.EndFrame s (settleBut held s) := by
  unfold settleBut
  split
  · exact (FaultRules.endFrame_delaysEnded s).trans (FaultRules.endFrame_ends _ _)
  · exact .refl s

theorem takesTicks_of_endFrame {s t : State} (frame : FaultRules.EndFrame s t) (l : LaneId) :
    (t.lane l).takesTicks = (s.lane l).takesTicks := by
  rw [frame.lane l]
  rfl

/-! ## A tick with what is taken within it -/

section Within

variable {s : State} {l : LaneId} (w : Within)

/-- A lane that takes ticks, with no reset within its tick, counts the tick once. -/
theorem tickWith_ticks (ticks : (s.lane l).takesTicks = true) (none : w.reset = none) :
    ((tickWith (fun _ v => v) w s l).lane l).counters.ticks = countUp (s.lane l).counters.ticks := by
  have course := courseOf_moves (anew := False) (fun s e => moves_report s e) (fun _ v => v) w
  have frame := endFrame_settleBut (heldEnds (w.afterSource ++ w.afterTriggers)) s
  have counted := moves_laneTick_counted course l (s := s) ((takesTicks_of_endFrame frame l).trans ticks)
  have whole : tickWith (fun _ v => v) w s l = (laneTick (courseOf report (fun _ v => v) w) s l).1 := by
    rw [tickWith, none, resetAmid_none]
  rw [whole, ticks_moves (counted.lane l), State.lane_modLane_same]
  have counters : ((settleBut (heldEnds (w.afterSource ++ w.afterTriggers)) s).lane l).counters = (s.lane l).counters := by
    rw [frame.lane l]
  exact congrArg (fun k : LaneCounters => countUp k.ticks) counters

theorem grid_tickWith (k : LaneId) : Grid (s.lane k) ((tickWith (fun _ v => v) w s l).lane k) :=
  grid_moves ((moves_tickWith s (fun _ u => TickMoves.refl u) w l).lane k)

theorem fillQueue_tickWith : (tickWith (fun _ v => v) w s l).dir.fillQueue = s.dir.fillQueue :=
  (moves_tickWith s (fun _ u => TickMoves.refl u) w l).fillQueue

end Within

/-! ## The steps of a tick in one piece -/

/-- What a tick leaves whose later steps have come to this end. -/
def endOfTick : Flow Unit → State
  | .goOn s _ => s
  | .endedTick s e => report s e

theorem fullTick_whole (s : State) (l : LaneId) : (fullTick .whole s l).1 =
    endOfTick (laterSteps .whole
      (Course.whole.told (sourceStage (s.modLane l Lane.countTickTaken) l).1
        (sourceStage (s.modLane l Lane.countTickTaken) l).2.error) l
      (sourceStage (s.modLane l Lane.countTickTaken) l).2) := by
  unfold fullTick
  dsimp only
  split
  · next later => rw [later]; rfl
  · next later => rw [later]; rfl

theorem laneTick_whole {s : State} {l : LaneId} (plays : ((settle s).lane l).state = .draining ∨
    (((settle s).lane l).state = .running ∧
      (((settle s).lane l).config.source = .live → (settle s).link.state ≠ .lost))) :
    laneTick .whole s l = fullTick .whole (settle s) l := by
  unfold laneTick
  rcases plays with draining | ⟨running, linked⟩
  · simp only [Course.whole, draining]
  · have here : ¬(decide (((settle s).lane l).config.source = .live) && decide ((settle s).link.state = .lost)) = true := by
      simpa using linked
    simp only [Course.whole, running]
    exact if_neg here

section Steps

variable {s : State} {l : LaneId} {source : Sourced}

theorem laterSteps_attempt {v : State} {e : ErrorDetail} (ended : step2 s l source.presented = .endedTick v e) :
    laterSteps .whole s l source = .endedTick v e := by
  rw [laterSteps]
  simp only [Course.whole, id, ended]

theorem laterSteps_gates {v w : State} {attempted : List RuleId} {e : ErrorDetail}
    (second : step2 s l source.presented = .goOn v attempted) (ended : step3 v l = .endedTick w e) :
    laterSteps .whole s l source = .endedTick w e := by
  rw [laterSteps]
  simp only [Course.whole, id, second, ended]

theorem laterSteps_last {v w : State} {attempted : List RuleId} {gates : List (RuleId × Bool)}
    (second : step2 s l source.presented = .goOn v attempted) (third : step3 v l = .goOn w gates) :
    laterSteps .whole s l source = lastSteps .whole w l source gates := by
  rw [laterSteps]
  simp only [Course.whole, id, second, third]

end Steps

/-- Settles O19: what any tick keeps, and the steps of a tick in one piece. -/
theorem timedTickKeepsItsGrid : Obligations.TimedTickKeepsItsGrid := by
  refine ⟨fun l w s next period pacing => ?grid, fun l s => ?steps⟩
  case grid =>
    have row : exec (.timedTick ⟨l, w⟩) s = .next (tickWith (fun _ v => v) w
        ((s.reach next).setLane l { s.lane l with pacing := .timed (next + period) period }) l) := by
      change execTimedTick ⟨l, w⟩ s = _
      simp only [execTimedTick, timedTick, pacing]
      rfl
    generalize start : (s.reach next).setLane l { s.lane l with pacing := .timed (next + period) period } = u at row
    have lane : u.lane l = { s.lane l with pacing := .timed (next + period) period } := by
      rw [← start, State.lane_setLane_same]
    have frame := eventFrame_tickWith w u l
    have grid (k : LaneId) := grid_tickWith (s := u) (l := l) w k
    refine ⟨_, row, ?now, rfl, fun v => tickWith_empty v l, fun ticks none => ?ticks, fun ticking => ?pacing,
      fun k => ?config, fun none => ?records, ?_, ?_, ?_, ?_, ?_, ?_, ?_⟩
    case now =>
      rw [frame.now, ← start]
      rfl
    case ticks =>
      have ticks : (u.lane l).takesTicks = true := by rw [lane]; exact ticks
      rw [tickWith_ticks w ticks none, lane]
    case pacing =>
      have same := (grid l).pacing.resolve_right (not_rests_of_takesTicks ticking)
      rw [same, lane]
    case config =>
      have before : (u.lane k).config = (s.lane k).config ∧ (u.lane k).playlist = (s.lane k).playlist := by
        rw [← start, State.lane_setLane]
        split
        · next same => exact same ▸ ⟨rfl, rfl⟩
        · exact ⟨rfl, rfl⟩
      exact ⟨(grid k).config.trans before.1, (grid k).playlist.trans before.2⟩
    case records =>
      have kept := tickFrame_tickWith w none u l
      rw [kept.link, kept.cmd, ← start]
      exact ⟨rfl, rfl⟩
    · rw [frame.resetLow, ← start]; rfl
    · rw [frame.curves, ← start]; rfl
    · rw [frame.tmc, ← start]; rfl
    · rw [frame.mem, ← start]; rfl
    · rw [fillQueue_tickWith, ← start]; rfl
    · rw [frame.freeCount, ← start]; rfl
    · rw [frame.pending, ← start]; rfl
  case steps =>
    intro u x t plays first told
    have whole : t = endOfTick (laterSteps .whole told l first.2) :=
      (congrArg Prod.fst (laneTick_whole plays)).trans (fullTick_whole u l)
    rw [whole]
    refine ⟨fun v e ended => ?_, fun v attempted second => ⟨fun w e ended => ?_, fun w gates third =>
      ⟨fun z e ended => ?_, fun z last => ?_⟩⟩⟩
    · rw [laterSteps_attempt ended]
      rfl
    · rw [laterSteps_gates second ended]
      rfl
    · rw [laterSteps_last second third, ended]
      rfl
    · rw [laterSteps_last second third, last]
      rfl

end Sys2Proof.TimedTicks
end

section
/-! PROOFS. The soft reset, and what arrives after it of an event that it is taken amid (R13, R110, R138, R140, R147,
R164, R179; log 43). -/

namespace Sys2Proof.SoftResets

open Sys2Proof.Machine

/-! ## A settled state is settled (log 9) -/

section Settled

variable (s : State) (i j : RuleId)

theorem endDue_endActivation :
    ((endActivation s i).rule j).endDue = if j = i then false else (s.rule j).endDue := by
  by_cases same : j = i
  · subst same
    rw [FaultRules.rule_endActivation_self, if_pos rfl]
    split <;> rfl
  · rw [FaultRules.rule_endActivation_other s i same, if_neg same]
    split <;> rfl

theorem delayEnds_trigger (now : Bool) (x : Rule) : (x.trigger now).delayEnds = false := by
  rw [← Bool.not_eq_true, FaultRules.delayEnds_iff]
  rintro ⟨-, zero, notDue⟩
  exact absurd (show x.fields.delay = 0 from zero) (of_decide_eq_false notDue)

theorem delayEnds_ended (x : Rule) : x.ended.delayEnds = false := by
  rw [← Bool.not_eq_true, FaultRules.delayEnds_iff]
  rintro ⟨triggered, -, -⟩
  unfold Rule.ended at triggered
  dsimp only at triggered
  split at triggered <;> cases triggered

/-- An end of an activation brings no end of a delay. -/
theorem delayEnds_endActivation (none : (s.rule j).delayEnds = false) :
    ((endActivation s i).rule j).delayEnds = false := by
  by_cases same : j = i
  · subst same
    rw [FaultRules.rule_endActivation_self]
    split
    · exact delayEnds_trigger false _
    · exact delayEnds_ended _
  · rw [FaultRules.rule_endActivation_other s i same]
    split
    · exact delayEnds_trigger false _
    · exact none

end Settled

theorem delayEnds_ends (ends : List RuleId) (s : State) (none : ∀ r, (s.rule r).delayEnds = false) (r : RuleId) :
    ((ends.foldl endActivation s).rule r).delayEnds = false := by
  induction ends generalizing s with
  | nil => exact none r
  | cons i rest ih => exact ih _ fun j => delayEnds_endActivation s i j (none j)

theorem endDue_ends (ends : List RuleId) (s : State) (r : RuleId) :
    ((ends.foldl endActivation s).rule r).endDue = if r ∈ ends then false else (s.rule r).endDue := by
  induction ends generalizing s with
  | nil => simp
  | cons i rest ih =>
    rw [List.foldl_cons, ih, endDue_endActivation]
    by_cases later : r ∈ rest
    · simp [later]
    · by_cases now : r = i <;> simp [later, now]

theorem delayEnds_settle (s : State) (r : RuleId) : ((settle s).rule r).delayEnds = false := by
  rw [FaultRules.settle_eq]
  refine delayEnds_ends _ _ (fun j => ?_) r
  rw [FaultRules.rule_delaysEnded]
  by_cases ends : (s.rule j).delayEnds = true
  · rw [if_pos ends]
    simp [Rule.delayEnds, endDelay]
  · rw [if_neg ends]
    exact Bool.eq_false_iff.2 ends

theorem chain_settle (s : State) (l : LaneId) : ((settle s).lane l).chain.Sublist (s.lane l).chain := by
  have ends (due : List RuleId) (u : State) :
      ((due.foldl endActivation u).lane l).chain.Sublist (u.lane l).chain := by
    induction due generalizing u with
    | nil => exact List.Sublist.refl _
    | cons i rest ih =>
      refine (ih _).trans ?_
      rw [FaultRules.lane_endActivation]
      exact List.erase_sublist
  rw [FaultRules.settle_eq]
  exact (ends _ _).trans (by rw [FaultRules.lane_delaysEnded])

theorem endsDue_settle (s : State) : endsDue (settle s) = [] := by
  rw [endsDue, List.flatMap_eq_nil_iff]
  intro l _
  rw [List.filter_eq_nil_iff]
  intro r inChain due
  have before : r ∈ (s.lane l).chain := (chain_settle s l).subset inChain
  have still : ((settle s).rule r).endDue = if r ∈ endsDue s then false else ((FaultRules.delaysEnded s).rule r).endDue := by
    rw [FaultRules.settle_eq, endDue_ends]
  have same : ((FaultRules.delaysEnded s).rule r).endDue = (s.rule r).endDue := by
    rw [FaultRules.rule_delaysEnded]
    split <;> rfl
  rw [still, same] at due
  by_cases taken : r ∈ endsDue s
  · rw [if_pos taken] at due
    cases due
  · rw [if_neg taken] at due
    exact taken (List.mem_flatMap.2 ⟨l, List.mem_finRange l, List.mem_filter.2 ⟨before, due⟩⟩)

/-- A settled state is settled, whatever the Return Sender holds. -/
theorem settle_settled (s : State) (r : ReturnSender) :
    settle { settle s with ret := r } = { settle s with ret := r } := by
  rw [FaultRules.settle_eq]
  have none : endsDue { settle s with ret := r } = [] := endsDue_settle s
  rw [none]
  exact FaultRules.delaysEnded_self fun j => delayEnds_settle s j

/-! ## The soft reset (R13, R110, R179) -/

theorem laneSoftReset_eq (x : Lane) : x.softReset = { x with
    state := .off
    pacing := .stopped
    live := ⟨0, false, false⟩
    prev := none
    history := []
    counters := ⟨0, 0, 0, 0, 0, 0, 0⟩
    fetchPos := .none
    queue := []
    fetch := x.fetch.map fun f => { f with voided := true }
    debt := 0
    counted := []
    chain := []
    port := { x.port with pending := none } } := rfl

theorem ruleSoftReset_eq (x : Rule) : x.softReset = { x with
    state := if x.state = .vacant then .vacant else if x.state = .spent then .spent else .loaded
    delayCount := 0
    durationCount := 0
    remaining := .count 0
    noise := 1
    ramp := 0
    activations := 0
    missed := 0
    applied := 0
    baseSeen := false
    attemptDue := false
    endDue := false
    late := false } := by
  unfold Rule.softReset
  cases x.state <;> rfl

theorem rule_softReset (s : State) (r : RuleId) : (softReset s).rule r = (s.rule r).softReset := by
  have rules : (softReset s).rules = ((s.mapLanes fun _ x => x.softReset).mapRules fun _ x => x.softReset).rules := rfl
  have moved : (softReset s).rule r = ((s.mapLanes fun _ x => x.softReset).mapRules fun _ x => x.softReset).rule r :=
    congrArg (·[r.val]) rules
  rw [moved, State.rule_mapRules, State.rule_mapLanes]

theorem block_softReset (s : State) (b : BlockId) : (softReset s).block b = { s.block b with inUse := 0 } := by
  simp [State.block, softReset, Directory.softReset]

theorem softReset_eq_with (s : State) : softReset s = { s with
    lanes := (softReset s).lanes
    rules := (softReset s).rules
    dir := { s.dir with blocks := (softReset s).dir.blocks }
    link := { s.link with badWords := 0, stray := 0, badLane := 0, cycleJumps := 0, overrun := 0 }
    ret := { s.ret with notices := [], taps := [], tapLanes := [], noticesDropped := 0, tapsDropped := 0 }
    latch := ⟨.empty, 0, 0⟩
    cmd := { s.cmd with window := none } } := by
  simp only [softReset, State.mapRules, State.mapLanes]
  rfl

theorem softReset_queue (s : State) : (softReset s).cmd.queue = s.cmd.queue := by rw [softReset_eq_with]

/-- A Return Sender whose queues are set aside is reset to the same. -/
theorem softReset_quiet (s : State) : softReset { s with ret := s.ret.quiet } = softReset s := by
  simp only [softReset, State.mapRules, State.mapLanes]
  rfl

/-- What a RESET carried out leaves, its reply tried. -/
def resetReplied (s : State) (p : Place) (rest : List Place) : State :=
  replied (softReset s) p rest ⟨.done, p.tag, p.code, []⟩

section Command

variable {s e : State} {p : Place} {rest : List Place} (headed : Headed s p rest) (carried : CarriedOut .reset p)

include headed carried

theorem exec_reset : exec .reset s = .next (resetReplied (settle s) p rest) :=
  takeRecord_reply (m := "RESET") (run := fun _ s => (softReset s, .reply .done [])) headed carried
    (isCommand_carriedOut carried) rfl (softReset_queue _)

theorem resetAtHead_headed : resetAtHead s = true := by
  simp [resetAtHead, headRecord_of headed, isCommand_carriedOut carried, judge_carriedOut carried]

theorem takeHead_reset : takeHead .reset (fun _ s => (softReset s, .reply .done [])) s = resetReplied s p rest := by
  have queue : (softReset s).cmd.queue = p :: rest := (softReset_queue s).trans headed.2.1
  simp only [takeHead, headRecord_of headed, isCommand_carriedOut carried, if_true, judge_carriedOut carried]
  exact answer_reply .done [] queue

end Command

theorem headed_of_cmd {s t : State} {p : Place} {rest : List Place} (headed : Headed s p rest) (cmd : t.cmd = s.cmd) :
    Headed t p rest := by
  rw [Headed, cmd]
  exact headed

/-! ## What arrives after the reset (R147, R164; log 43) -/

theorem tellAmong_nil : tellAmong [] = fun s _ => s := rfl

/-- An event that finds no error, with the RESET at the head taken before all that it sends has arrived. -/
theorem resetAmid_silent {run : (State → ErrorDetail → State) → State → TickEnd} {s e : State} {p : Place}
    {rest : List Place} (a : Arrived) (carried : CarriedOut .reset p)
    (silent : ∀ tell, run tell { s with ret := s.ret.quiet } = (e, [])) (headed : Headed (settle e) p rest) :
    resetAmid (some a) run s = arrive a (settle e).ret (resetReplied (settle e) p rest) := by
  simp only [resetAmid, silent, resetAtHead_headed headed carried, if_true, resetThenArrive, takeHead_reset headed carried,
    List.drop_nil, List.map_nil, List.filter_nil, List.foldl_nil]

/-! ### Ticks that find no error -/

section SilentTick

variable {c : Course} {s : State} {l : LaneId}

theorem fullTick_tell (silent : (fullTick c s l).2 = []) (tell : State → ErrorDetail → State) :
    fullTick { c with tell := tell } s l = fullTick c s l := by
  have later (u : State) (source : Sourced) : laterSteps { c with tell := tell } u l source = laterSteps c u l source := rfl
  unfold fullTick at silent ⊢
  dsimp only at silent ⊢
  cases error : (sourceStage (s.modLane l Lane.countTickTaken) l).2.error with
  | some e =>
    rw [error] at silent
    split at silent <;> cases silent
  | none =>
    rw [error] at silent
    simp only [Course.told, later] at silent ⊢
    split
    · rfl
    · next ended =>
      rw [ended] at silent
      cases silent

theorem haltedTick_tell (silent : (haltedTick c s l).2 = []) (tell : State → ErrorDetail → State) :
    haltedTick { c with tell := tell } s l = haltedTick c s l := by
  unfold haltedTick at silent ⊢
  dsimp only at silent ⊢
  split
  · rfl
  · next linked =>
    rw [if_neg linked] at silent
    split
    · next fails =>
      rw [fails] at silent
      cases silent
    · rfl

/-- A tick that finds no error is the same wherever errors would be told. -/
theorem laneTick_tell (silent : (laneTick c s l).2 = []) (tell : State → ErrorDetail → State) :
    laneTick { c with tell := tell } s l = laneTick c s l := by
  unfold laneTick at silent ⊢
  dsimp only at silent ⊢
  cases state : ((c.takeEnds s).lane l).state with
  | off => rfl
  | primed => rfl
  | draining =>
    rw [state] at silent
    exact fullTick_tell silent tell
  | running =>
    rw [state] at silent
    dsimp only at silent ⊢
    split
    · rfl
    · next linked =>
      rw [if_neg linked] at silent
      exact fullTick_tell silent tell
  | halted =>
    rw [state] at silent
    dsimp only at silent ⊢
    split
    · next live =>
      rw [if_pos live] at silent
      exact haltedTick_tell silent tell
    · rfl

end SilentTick

/-! ### A HARD report that arrives after the reset -/

section Replied

variable (v : State) (p : Place) (rest : List Place) (r : Reply)

theorem replied_latch : (replied v p rest r).latch = v.latch := by
  unfold replied
  split <;> rfl

theorem lane_replied (l : LaneId) : (replied v p rest r).lane l = v.lane l := by
  unfold replied
  split <;> rfl

theorem replied_dropped : (replied v p rest r).ret.noticesDropped = v.ret.noticesDropped ∧
    (replied v p rest r).ret.tapsDropped = v.ret.tapsDropped := by
  unfold replied
  split <;> exact ⟨rfl, rfl⟩

end Replied

theorem nothing_dropped (r : ReturnSender) (notices : r.noticesDropped = 0) (taps : r.tapsDropped = 0) :
    { r with
      noticesDropped := min (r.noticesDropped + 0) Config.counterMax
      tapsDropped := min (r.tapsDropped + 0) Config.counterMax } = r := by
  cases r
  simp_all

section LateReport

variable (s : State) (p : Place) (rest : List Place)

theorem resetReplied_latch : (resetReplied s p rest).latch = ⟨.empty, 0, 0⟩ := by
  rw [resetReplied, replied_latch, softReset_eq_with]

theorem lane_resetReplied (l : LaneId) : (resetReplied s p rest).lane l = (s.lane l).softReset := by
  rw [resetReplied, lane_replied, LaneMoves.lane_softReset]

/-- Where an event has sent nothing, nothing arrives after the reset. -/
theorem arrive_quiet (r : ReturnSender) : arrive {} r.quiet (resetReplied s p rest) = resetReplied s p rest := by
  have dropped := replied_dropped (softReset s) p rest ⟨.done, p.tag, p.code, []⟩
  have zero : (softReset s).ret.noticesDropped = 0 ∧ (softReset s).ret.tapsDropped = 0 := by
    rw [softReset_eq_with]
    exact ⟨rfl, rfl⟩
  rw [zero.1, zero.2] at dropped
  exact congrArg (fun k => { resetReplied s p rest with ret := k }) (nothing_dropped _ dropped.1 dropped.2)

/-- A HARD report that finds the latch EMPTY and its lane OFF is held, and halts nothing. -/
theorem takeReport_off {w : State} {d : Descriptor} {l : LaneId} (hard : d.detail.hardLane = some l)
    (latch : w.latch = ⟨.empty, 0, 0⟩) (off : (w.lane l).state = .off) : takeReport w d =
      offerNotice { w with latch := ⟨.held d, 0, 0⟩ } .latchSet (latchPayload ⟨.held d, 0, 0⟩) := by
  have taken : latchTakes w d =
      offerNotice { w with latch := ⟨.held d, 0, 0⟩ } .latchSet (latchPayload ⟨.held d, 0, 0⟩) := by
    rw [FaultLatch.latchTakes_empty d (by rw [latch])]
    simp only [holdDescriptor, offerLatchSet, latch]
  have still : ((latchTakes w d).lane l).state = .off := by
    rw [taken, FaultLatch.offerNotice_eq_with]
    exact off
  have orders : Reports.orders w d = [l] := by
    have calm : ¬nests w.latch.state d = true := by rw [latch]; exact Bool.false_ne_true
    rw [Reports.orders, if_neg calm, hard]
    rfl
  have halts : haltLane (latchTakes w d) l = latchTakes w d := by
    rw [haltLane, still]
    rfl
  rw [Reports.takeReport_eq, orders, List.foldl_cons, List.foldl_nil, halts, taken]

theorem playlistWord_eq (l : LaneId) : packWord [(1, 0), (4, 2), (1, 5), (1, 6), (l.val, 8)] =
    BitVec.ofNat 32 (1 + 4 * 2 ^ 2 + 2 ^ 5 + 2 ^ 6 + l.val * 2 ^ 8) := by
  have sum : FaultRules.fieldSum [(1, 0), (4, 2), (1, 5), (1, 6), (l.val, 8)] =
      1 + 4 * 2 ^ 2 + 2 ^ 5 + 2 ^ 6 + l.val * 2 ^ 8 := by
    simp only [FaultRules.fieldSum_cons, FaultRules.fieldSum_nil]
    omega
  exact congrArg (BitVec.ofNat 32) sum

theorem latchPayload_playlist (l : LaneId) (n : Nat) (cycle : Word) :
    latchPayload ⟨.held ⟨.playlistCheck l n, cycle⟩, 0, 0⟩ =
      [BitVec.ofNat 32 (1 + 4 * 2 ^ 2 + 2 ^ 5 + 2 ^ 6 + l.val * 2 ^ 8), cycle, BitVec.ofNat 32 n, 0, 0] := by
  rw [← playlistWord_eq]
  rfl

variable {s p rest}

/-- A HARD error that an event tells at once, the RESET at the head taken before its report has arrived. -/
theorem resetAmid_late {u q : State} {err : ErrorDetail} (hard : Descriptor.isHard (descriptorOf q err) = true)
    (hq : q = { u with ret := u.ret.quiet }) (settled : settle q = q) (atHead : resetAtHead q = true) :
    resetAmid (some {}) (fun tell s => (tell s err, [err])) u =
      takeReport (arrive {} q.ret (takeHead .reset (fun _ s => (softReset s, .reply .done [])) q))
        (descriptorOf q err) := by
  simp only [resetAmid, List.take_zero, tellAmong_nil, ← hq, settled, atHead, if_true, List.drop_zero, resetThenArrive,
    List.map_cons, List.map_nil, List.filter_cons, List.filter_nil, hard, Bool.not_true, Bool.false_eq_true, if_false,
    List.foldl_cons, List.foldl_nil]

/-- An entry that fails its check, the RESET at the head taken before its report has arrived. -/
theorem playlistFails_late (headed : Headed s p rest) (carried : CarriedOut .reset p) (l : LaneId) (n : Nat) :
    playlistFails ⟨l, some {}⟩ (settle s) (.playlistCheck l n) =
      offerNotice
        { resetReplied (settle s) p rest with latch := ⟨.held ⟨.playlistCheck l n, s.link.currentCycle⟩, 0, 0⟩ } .latchSet
        [BitVec.ofNat 32 (1 + 4 * 2 ^ 2 + 2 ^ 5 + 2 ^ 6 + l.val * 2 ^ 8), s.link.currentCycle, BitVec.ofNat 32 n, 0, 0] := by
  obtain ⟨q, hq⟩ : ∃ q, q = { settle s with ret := (settle s).ret.quiet } := ⟨_, rfl⟩
  have queued : Headed q p rest := headed_of_cmd headed (by rw [hq]; exact settle_cmd s)
  have taken : takeHead .reset (fun _ s => (softReset s, .reply .done [])) q = resetReplied (settle s) p rest := by
    rw [takeHead_reset queued carried, hq]
    exact congrArg (replied · p rest _) (softReset_quiet _)
  have arrived : arrive {} q.ret (resetReplied (settle s) p rest) = resetReplied (settle s) p rest := by
    rw [hq]
    exact arrive_quiet (settle s) p rest _
  have described : descriptorOf q (.playlistCheck l n) = ⟨.playlistCheck l n, s.link.currentCycle⟩ := by
    rw [hq, ← (tickFrame_settle s).link]
    rfl
  have off : ((resetReplied (settle s) p rest).lane l).state = .off := by
    rw [lane_resetReplied]
    rfl
  rw [playlistFails, resetAmid_late rfl hq (by rw [hq]; exact settle_settled s _) (resetAtHead_headed queued carried),
    taken, arrived, described, takeReport_off rfl (resetReplied_latch _ p rest) off, latchPayload_playlist]

end LateReport

/-! ### Events that the reset is taken amid -/

section Amid

variable {s : State} {p : Place} {rest : List Place} (a : Arrived) (headed : Headed s p rest)
  (carried : CarriedOut .reset p)

include headed carried

/-- What arrives after the reset joins the emptied queues; the drops among it are counted. -/
theorem late_tick {l : LaneId} {next period : Nat} (pacing : (s.lane l).pacing = .timed next period)
    (silent : (laneTick .whole ((State.reach { s with ret := s.ret.quiet } next).modLane l fun x =>
      { x with pacing := .timed (next + period) period }) l).2 = []) :
    ∃ e, exec (.timedTick ⟨l, {}⟩) { s with ret := s.ret.quiet } = .next e ∧
      exec (.timedTick ⟨l, { reset := some a }⟩) s =
        .next (arrive a (settle e).ret (resetReplied (settle e) p rest)) ∧ Headed e p rest := by
  obtain ⟨w, begun⟩ : ∃ w, w = (s.reach next).modLane l fun x => { x with pacing := .timed (next + period) period } :=
    ⟨_, rfl⟩
  have quiet : (State.reach { s with ret := s.ret.quiet } next).modLane l (fun x =>
      { x with pacing := .timed (next + period) period }) = { w with ret := w.ret.quiet } := by
    rw [begun]
    rfl
  have cmd : w.cmd = s.cmd := by rw [begun]; rfl
  have once : timedTick (fun _ s => s) ⟨l, {}⟩ { s with ret := s.ret.quiet } =
      some (laneTick .whole { w with ret := w.ret.quiet } l).1 := by
    rw [← quiet, ← tickWith_empty]
    unfold timedTick
    rw [show (State.lane { s with ret := s.ret.quiet } l).pacing = .timed next period from pacing]
  have amid : timedTick (fun _ s => s) ⟨l, { reset := some a }⟩ s =
      some (resetAmid (some a) (fun tell u => laneTick { Course.whole with tell := tell } u l) w) := by
    unfold timedTick
    rw [pacing, begun]
    simp only [tickWith, ← courseOf_empty]
    rfl
  rw [quiet] at silent
  clear quiet begun
  have queued : Headed (laneTick .whole { w with ret := w.ret.quiet } l).1 p rest := by
    refine headed_of_cmd headed (.trans ?_ cmd)
    rw [← tickWith_empty]
    exact (tickFrame_tickWith {} ⟨rfl, List.not_mem_nil, List.not_mem_nil⟩ _ l).cmd
  have found : laneTick .whole { w with ret := w.ret.quiet } l =
      ((laneTick .whole { w with ret := w.ret.quiet } l).1, []) := Prod.ext rfl silent
  rw [resetAmid_silent a carried (fun tell => (laneTick_tell silent tell).trans found)
    (headed_of_cmd queued (settle_cmd _))] at amid
  refine ⟨_, ?_, ?_, queued⟩
  · change execTimedTick _ _ = _
    rw [execTimedTick, once]
  · change execTimedTick _ _ = _
    rw [execTimedTick, amid]

theorem late_end {r : RuleId} (active : (s.rule r).state = .active) (due : (s.rule r).endDue = true) :
    ∃ e, exec (.ruleDurationEnd ⟨r, none⟩) { s with ret := s.ret.quiet } = .next e ∧
      exec (.ruleDurationEnd ⟨r, some a⟩) s =
        .next (arrive a (settle e).ret (resetReplied (settle e) p rest)) ∧ Headed e p rest := by
  have queued : Headed (endActivation { s with ret := s.ret.quiet } r) p rest :=
    headed_of_cmd headed (tickFrame_endActivation _ r).cmd
  refine ⟨_, FaultRules.exec_ruleDurationEnd active due, ?_, queued⟩
  rw [← resetAmid_silent a carried (run := fun _ s => (endActivation s r, [])) (fun _ => rfl)
    (headed_of_cmd queued (settle_cmd _))]
  exact whenPossible_of _ _ (by simp [active, due])

end Amid

/-- The issue of a fetch at an entry that fails its check. -/
theorem exec_fetchIssue_fails {s : State} {l : LaneId} {place : Position} {e : StoredEntry} {reset : Option Arrived}
    (wanted : ((settle s).lane l).fetchWanted = some place)
    (entry : ((settle s).lane l).playlist[place.entry]? = some e) (fails : entryPasses (settle s) e = false) :
    exec (.fetchIssue ⟨l, reset⟩) s =
      .next (playlistFails ⟨l, reset⟩ (settle s) (.playlistCheck l place.entry)) := by
  change execFetchIssue _ _ = _
  simp only [execFetchIssue, wanted, entry, fails, Bool.false_eq_true, if_false]

theorem fetchWanted_at {x : Lane} {place : Position} (inPlay : x.state.inPlay = true) (fetch : x.fetch = none)
    (lead : x.entryLead < 2) (free : 0 < x.freePlaces) (pos : x.fetchPos = .at place) : x.fetchWanted = some place := by
  simp [Lane.fetchWanted, inPlay, fetch, lead, free, pos]

/-- Settles O41. -/
theorem softResetKeepsItsTables : Obligations.SoftResetKeepsItsTables := by
  intro s p rest headed carried u
  refine ⟨softReset u, exec_reset headed carried, fun l => ?lane, fun r => ?rule, block_softReset u,
    softReset_eq_with u, fun event late a => ?_, fun l place e => ?_⟩
  case lane =>
    rw [LaneMoves.lane_softReset]
    exact laneSoftReset_eq _
  case rule =>
    rw [rule_softReset]
    exact ruleSoftReset_eq _
  · rintro quiet (⟨l, rfl, rfl, next, period, pacing, silent⟩ | ⟨r, rfl, rfl, active, due⟩)
    · obtain ⟨e, ticked, amid, queued⟩ := late_tick a headed carried pacing silent
      exact ⟨e, _, ticked, exec_reset queued carried, amid⟩
    · obtain ⟨e, ended, amid, queued⟩ := late_end a headed carried active due
      exact ⟨e, _, ended, exec_reset queued carried, amid⟩
  · intro x inPlay fetch lead free pos entry fails w
    exact (exec_fetchIssue_fails (fetchWanted_at inPlay fetch lead free pos) entry fails).trans
      (congrArg _ (playlistFails_late headed carried l place.entry))

end Sys2Proof.SoftResets
end

section
/-! PROOFS. Ticks of a lane whose rules stand still: the steps that no rule moves, and the ticks that present a code
without rules (R9, R16 to R19, R23, R58, R59, R62, R74, R82, R137; log 10). -/

namespace Sys2Proof.QuietTicks

open Sys2Proof.Machine Sys2Proof.Conversion Sys2Proof.TimedTicks

/-! ## Rules that stand still -/

/-- No rule is TRIGGERED, and no activation has still to end. -/
def RulesCalm (s : State) : Prop := ∀ r, (s.rule r).state ≠ .triggered ∧ (s.rule r).endDue = false

theorem calm_of_quiet {s : State} (quiet : RulesQuiet s) : RulesCalm s := fun r => (quiet r).2

section Calm

variable {s : State}

theorem settle_calm (calm : RulesCalm s) : settle s = s :=
  settle_of_not_unsettled (FaultRules.unsettled_eq_false_iff.2 fun r => ⟨(calm r).2, by
    rw [← Bool.not_eq_true, FaultRules.delayEnds_iff]
    exact fun ends => (calm r).1 ends.1⟩)

variable (untriggered : ∀ r, (s.rule r).state ≠ .triggered)

include untriggered

theorem markBase_calm (l : LaneId) : markBase s l = s :=
  mapRules_self fun r => by simp [untriggered r]

theorem attemptsDue_calm (l : LaneId) : attemptsDue s l = [] := by
  have none : ruleNumbers.filter (attemptFalls s l) = [] :=
    List.filter_eq_nil_iff.2 fun r _ => by simp [attemptFalls, untriggered r]
  rw [attemptsDue, none, List.foldl_nil]

/-- A FREEZE tick without TRIGGERED rules attempts nothing. -/
theorem step2_frozen (l : LaneId) (rules : List RuleId) : step2 s l (.frozen rules) = .goOn s [] := by
  simp only [step2, markBase_calm untriggered, attemptsDue_calm untriggered, runAttempts]

theorem countTick_calm (l : LaneId) (r : RuleId) : (s.rule r).countTick l false = s.rule r := by
  simp [Rule.countTick, untriggered r]

theorem step3_unchained {l : LaneId} (chain : (s.lane l).chain = []) : step3 s l = .goOn s [] := by
  have rules : s.mapRules (fun i r => r.countTick l (([] : List RuleId).contains i)) = s :=
    mapRules_self fun r => countTick_calm untriggered l r
  have gate : s.modLane l (fun x => { x with gate := (s.lane l).gate }) = s := modLane_self rfl
  simp only [step3, chain, List.find?_nil, drawGates, gate, rules]

end Calm

/-! ## A tick of a lane that stands as given -/

theorem modLane_setLane (t : State) (l : LaneId) (x : Lane) (f : Lane → Lane) :
    (t.setLane l x).modLane l f = t.setLane l (f x) := by
  rw [State.modLane, State.lane_setLane_same, setLane_setLane]

section Begun

variable {s t : State} {l : LaneId} {x : Lane}

theorem exec_timedTick {next period : Nat} (pacing : (s.lane l).pacing = .timed next period) :
    exec (.timedTick ⟨l, {}⟩) s = .next (laneTick .whole
      ((s.reach next).setLane l { s.lane l with pacing := .timed (next + period) period }) l).1 := by
  change execTimedTick ⟨l, {}⟩ s = _
  simp only [execTimedTick, timedTick, pacing, tickWith_empty]
  rfl

theorem laneTick_plays (calm : RulesCalm t)
    (plays : x.state = .draining ∨ (x.state = .running ∧ (x.config.source = .live → t.link.state ≠ .lost))) :
    (laneTick .whole (t.setLane l x) l).1 =
      endOfTick (laterSteps .whole
        (Course.whole.told (sourceStage (t.setLane l x.countTickTaken) l).1
          (sourceStage (t.setLane l x.countTickTaken) l).2.error) l
        (sourceStage (t.setLane l x.countTickTaken) l).2) := by
  have settled : settle (t.setLane l x) = t.setLane l x := settle_calm calm
  rw [laneTick_whole (by rw [settled, State.lane_setLane_same]; exact plays), settled, fullTick_whole, modLane_setLane]

theorem freezers_unchained (chain : x.chain = []) : freezers (t.setLane l x) l = [] := by
  rw [freezers, State.lane_setLane_same, chain, List.filter_nil]

end Begun

/-! ## A code presented, and no rule in the chain -/

section Presents

variable {u : State} {l : LaneId} {x : Lane} {e : Int} {o : OutCode} {mark : Option Nat} {played : Option FetchWord}
  {error : Option ErrorDetail}

/-- A lane that has sensed `e` and pushed `w`. -/
def remembers (e : Int) (w : OutCode) (x : Lane) : Lane :=
  { x with prev := some e, history := (w :: x.history).take 64 }

theorem laterSteps_presents (quiet : RulesQuiet u) (chain : x.chain = [])
    (reads : curveStage u x.config.curve e = .code o) :
    laterSteps .whole (u.setLane l x) l ⟨.code e mark, played, error⟩ =
      .goOn (endOfPlay (handOver (u.setLane l (remembers e (wordOf x o) x)) l (plainHandOver (wordOf x o) false)) l
        played) () := by
  have second : step2 (u.setLane l x) l (.code e mark) = .goOn (u.setLane l { x with prev := some e }) [] := by
    rw [step2_quiet (s := u.setLane l x) quiet, modLane_setLane]
  have third : step3 (u.setLane l { x with prev := some e }) l = .goOn (u.setLane l { x with prev := some e }) [] :=
    step3_unchained (s := u.setLane l { x with prev := some e }) (fun r => (quiet r).2.1)
      (by rw [State.lane_setLane_same]; exact chain)
  rw [laterSteps_last (source := ⟨.code e mark, played, error⟩) second third]
  have fourth := step4_ungated (upper := id) (s := u.setLane l { x with prev := some e }) (l := l) (e := e) (o := o)
    (by rw [State.lane_setLane_same]; exact reads)
  rw [modLane_setLane, State.lane_setLane_same] at fourth
  simp only [lastSteps, Course.whole, fourth]
  rfl

theorem laterSteps_point (quiet : RulesQuiet u) (chain : x.chain = []) {c : CurveId} {k : Nat}
    (fails : curveStage u x.config.curve e = .fails c k) :
    laterSteps .whole (u.setLane l x) l ⟨.code e mark, played, error⟩ =
      .endedTick (u.setLane l { x with prev := some e }) (.curveCheck l c k) := by
  have second : step2 (u.setLane l x) l (.code e mark) = .goOn (u.setLane l { x with prev := some e }) [] := by
    rw [step2_quiet (s := u.setLane l x) quiet, modLane_setLane]
  have third : step3 (u.setLane l { x with prev := some e }) l = .goOn (u.setLane l { x with prev := some e }) [] :=
    step3_unchained (s := u.setLane l { x with prev := some e }) (fun r => (quiet r).2.1)
      (by rw [State.lane_setLane_same]; exact chain)
  rw [laterSteps_last (source := ⟨.code e mark, played, error⟩) second third]
  have unsaturated : (u.setLane l { x with prev := some e }).modLane l (Lane.countSaturation false) =
      u.setLane l { x with prev := some e } := modLane_self rfl
  have settled : settle (u.setLane l { x with prev := some e }) = u.setLane l { x with prev := some e } :=
    settle_calm (calm_of_quiet quiet)
  have none (cls : ActionClass) : applying (u.setLane l { x with prev := some e }) [] cls = [] := rfl
  have point : curveStageOver (u.setLane l { x with prev := some e }) (u.setLane l { x with prev := some e })
      x.config.curve e = .fails c k := fails
  simp only [lastSteps, Course.whole, step4, none, valueStage, unsaturated, State.lane_setLane_same, id, point, settled]

end Presents

/-! ## The SOFT error of a replay word (R59, R137) -/

section Soft

variable {s : State} {l : LaneId} {address : Nat}

/-- A SOFT report moves the latch and the Return Sender alone, whatever lanes and time stand at. -/
theorem report_traceReplay (s : State) (l : LaneId) (address : Nat) : ∃ k m, ∀ now lanes,
    report { s with now := now, lanes := lanes } (.traceReplay l address) =
      { s with now := now, lanes := lanes, latch := k, ret := m } := by
  refine ⟨Reports.latchAfter s.latch (descriptorOf s (.traceReplay l address)),
    (latchTakes s (descriptorOf s (.traceReplay l address))).ret, fun now lanes => ?_⟩
  have orders : Reports.orders { s with now := now, lanes := lanes } (descriptorOf s (.traceReplay l address)) = [] :=
    List.eq_nil_iff_forall_not_mem.2 fun k among => by
      rcases (Reports.mem_orders _ _ k).1 among with named | ⟨hard, -⟩
      · cases named
      · exact hard rfl
  have ret : (latchTakes { s with now := now, lanes := lanes } (descriptorOf s (.traceReplay l address))).ret =
      (latchTakes s (descriptorOf s (.traceReplay l address))).ret := by
    rw [Reports.latchTakes_eq, Reports.latchTakes_eq]
    split
    · exact FaultRules.offerNotice_ret_congr
        (s := { s with latch := Reports.latchAfter s.latch (descriptorOf s (.traceReplay l address)) })
        (t := { s with
          now := now
          lanes := lanes
          latch := Reports.latchAfter s.latch (descriptorOf s (.traceReplay l address)) }) rfl _ _
    · rfl
  change takeReport { s with now := now, lanes := lanes } (descriptorOf s (.traceReplay l address)) = _
  rw [Reports.takeReport_eq, orders, List.foldl_nil, Reports.latchTakes_eq_with, ret]

/-- The part after the error of a replay word, if it fails its check. -/
def replayTold (s : State) (l : LaneId) (q : QueueWord) : State :=
  if traceWordFails q.word then report s (.traceReplay l q.place.address) else s

/-- The report of a replay word leaves rules, curves and link, and comes before or after the lane's own changes. -/
theorem replayTold_eq (s : State) (l : LaneId) (q : QueueWord) : ∃ k m,
    replayTold s l q = { s with latch := k, ret := m } ∧
    ∀ (next : Nat) (x : Lane), Course.whole.told ((s.reach next).setLane l x)
        (if traceWordFails q.word then some (.traceReplay l q.place.address) else none) =
      ((replayTold s l q).reach next).setLane l x := by
  obtain ⟨k, m, reported⟩ := report_traceReplay s l q.place.address
  have here : report s (.traceReplay l q.place.address) = { s with latch := k, ret := m } := reported s.now s.lanes
  by_cases fails : traceWordFails q.word = true
  · refine ⟨k, m, (if_pos fails).trans here, fun next x => ?_⟩
    have told : replayTold s l q = { s with latch := k, ret := m } := (if_pos fails).trans here
    rw [if_pos fails, told]
    exact reported _ _
  · refine ⟨s.latch, s.ret, if_neg fails, fun next x => ?_⟩
    have told : replayTold s l q = s := if_neg fails
    rw [if_neg fails, told]
    rfl

theorem replayTold_rule (q : QueueWord) (r : RuleId) : (replayTold s l q).rule r = s.rule r := by
  obtain ⟨k, m, told, -⟩ := replayTold_eq s l q
  rw [told]
  rfl

theorem curveStage_replayTold (q : QueueWord) (curve : Option CurveId) (e : Int) :
    curveStage (replayTold s l q) curve e = curveStage s curve e := by
  obtain ⟨k, m, told, -⟩ := replayTold_eq s l q
  rw [told]
  rfl

end Soft

/-! ## The three sources (R17, R19, R58, R59, R62) -/

section Sources

variable {s t : State} {l : LaneId} {x : Lane} {next period : Nat} {e : Int} {o : OutCode}

/-- A lane after the discards for its debt, its head word taken. -/
def takesHead (rest : List QueueWord) (x : Lane) : Lane :=
  { x with queue := rest, debt := x.debt - min x.debt (x.queue.length - 1) }

/-- A tick that consumes the live holding register (R19). -/
theorem consumeLive_eq (x : Lane) : x.consumeLive = { x with
    live := ⟨x.live.value, false, false⟩
    counters := { x.counters with stale := if x.live.fresh then x.counters.stale else countUp x.counters.stale } } := by
  unfold Lane.consumeLive
  by_cases fresh : x.live.fresh = true
  · rw [if_pos fresh, if_pos fresh]
  · rw [if_neg fresh, if_neg fresh]

theorem sourceStage_live (chain : x.chain = []) (live : x.config.source = .live) :
    sourceStage (t.setLane l x) l = (t.setLane l x.consumeLive, ⟨x.live.presents, none, none⟩) := by
  simp only [sourceStage, freezers_unchained chain, State.lane_setLane_same, live, setLane_setLane]

theorem sourceStage_setLane_constant (chain : x.chain = []) (constant : x.config.source = .constant) :
    sourceStage (t.setLane l x) l = (t.setLane l x, ⟨.code x.config.constantCode none, none, none⟩) := by
  simp only [sourceStage, freezers_unchained chain, State.lane_setLane_same, constant]

theorem sourceStage_replay (chain : x.chain = []) (replay : x.config.source = .replay) {q : QueueWord}
    {rest : List QueueWord} (head : x.queue.drop (min x.debt (x.queue.length - 1)) = q :: rest) :
    sourceStage (t.setLane l x) l = (t.setLane l (takesHead rest x),
      ⟨replayPresents x.prev q.word, some q.place,
        if traceWordFails q.word then some (.traceReplay l q.place.address) else none⟩) := by
  have queue : x.payDebt.queue = q :: rest := head
  simp only [sourceStage, freezers_unchained chain, State.lane_setLane_same, replay, queue, setLane_setLane]
  rfl

/-- The code of a replay word: its own, or the previous one for a word with HOLD or one that fails (R59). -/
theorem replayPresents_code (prev : Option Int) (w : Word) : ∃ mark, replayPresents prev w =
    .code (if traceWordFails w = true ∨ w.getLsbD 25 = true then prev.getD 0 else (w.setWidth 24).toInt) mark := by
  have holds : (traceWordFails w || decide (field w 25 1 = 1)) = true ↔
      traceWordFails w = true ∨ w.getLsbD 25 = true := by
    rw [HandOvers.field_bit, Bool.or_eq_true]
  unfold replayPresents
  by_cases held : traceWordFails w = true ∨ w.getLsbD 25 = true
  · rw [if_pos (holds.2 held), if_pos held]
    exact ⟨_, rfl⟩
  · rw [if_neg (mt holds.1 held), if_neg held]
    exact ⟨_, rfl⟩

/-- A lane whose tick falls due: its next one stands `period` later, and TICKS is counted. -/
def ticking (next period : Nat) (x : Lane) : Lane :=
  { x with
    pacing := .timed (next + period) period
    counters := { x.counters with ticks := countUp x.counters.ticks } }

theorem exec_timedTick_plays (calm : RulesCalm s) (pacing : (s.lane l).pacing = .timed next period)
    (plays : (s.lane l).state = .draining ∨
      ((s.lane l).state = .running ∧ ((s.lane l).config.source = .live → s.link.state ≠ .lost)))
    {v : State} {source : Sourced}
    (first : sourceStage ((s.reach next).setLane l (ticking next period (s.lane l))) l = (v, source)) :
    exec (.timedTick ⟨l, {}⟩) s =
      .next (endOfTick (laterSteps .whole (Course.whole.told v source.error) l source)) := by
  refine (exec_timedTick pacing).trans (congrArg _ ((laneTick_plays (t := s.reach next) (l := l)
    (x := { s.lane l with pacing := .timed (next + period) period }) calm plays).trans ?_))
  change endOfTick (laterSteps .whole
    (Course.whole.told (sourceStage ((s.reach next).setLane l (ticking next period (s.lane l))) l).1
      (sourceStage ((s.reach next).setLane l (ticking next period (s.lane l))) l).2.error) l
    (sourceStage ((s.reach next).setLane l (ticking next period (s.lane l))) l).2) = _
  rw [first]

theorem exec_timedTick_presents {u v : State} {mark : Option Nat} {played : Option FetchWord}
    {error : Option ErrorDetail}
    (calm : RulesCalm s) (pacing : (s.lane l).pacing = .timed next period)
    (plays : (s.lane l).state = .draining ∨
      ((s.lane l).state = .running ∧ ((s.lane l).config.source = .live → s.link.state ≠ .lost)))
    (first : sourceStage ((s.reach next).setLane l (ticking next period (s.lane l))) l =
      (v, ⟨.code e mark, played, error⟩))
    (told : Course.whole.told v error = (u.reach next).setLane l x) (quiet : RulesQuiet u) (chain : x.chain = [])
    (reads : curveStage u x.config.curve e = .code o) :
    exec (.timedTick ⟨l, {}⟩) s =
      .next (endOfPlay (handOver ((u.reach next).setLane l (remembers e (wordOf x o) x)) l
        (plainHandOver (wordOf x o) false)) l played) := by
  rw [exec_timedTick_plays calm pacing plays first, told, laterSteps_presents (u := u.reach next) quiet chain reads]
  rfl

theorem exec_timedTick_replay (quiet : RulesQuiet s) (pacing : (s.lane l).pacing = .timed next period)
    (plays : (s.lane l).state = .running ∨ (s.lane l).state = .draining) (chain : (s.lane l).chain = [])
    (replay : (s.lane l).config.source = .replay) {q : QueueWord} {rest : List QueueWord}
    (head : (s.lane l).queue.drop (min (s.lane l).debt ((s.lane l).queue.length - 1)) = q :: rest)
    (code : e = if traceWordFails q.word = true ∨ q.word.getLsbD 25 = true then (s.lane l).prev.getD 0
      else (q.word.setWidth 24).toInt)
    (reads : curveStage s (s.lane l).config.curve e = .code o) :
    exec (.timedTick ⟨l, {}⟩) s =
      .next (endOfPlay (handOver (((replayTold s l q).reach next).setLane l
          (remembers e (wordOf (s.lane l) o) (takesHead rest (ticking next period (s.lane l))))) l
        (plainHandOver (wordOf (s.lane l) o) false)) l (some q.place)) := by
  obtain ⟨mark, presents⟩ := replayPresents_code (s.lane l).prev q.word
  rw [← code] at presents
  obtain ⟨-, -, -, told⟩ := replayTold_eq s l q
  have first := sourceStage_replay (t := s.reach next) (l := l) (x := ticking next period (s.lane l)) chain replay head
  have presents : replayPresents (ticking next period (s.lane l)).prev q.word = .code e mark := presents
  rw [presents] at first
  exact exec_timedTick_presents (calm_of_quiet quiet) pacing
    (plays.symm.imp_right fun running => ⟨running, fun live => by rw [replay] at live; cases live⟩) first
    (told next _)
    (fun r => by rw [replayTold_rule]; exact quiet r) chain (by rw [curveStage_replayTold]; exact reads)

end Sources

/-! ## The end of play (R9, R58) -/

/-- A word that does not end the play leaves the lane in play. -/
theorem endOfPlay_stays {s : State} {l : LaneId} {w : FetchWord}
    (pass : (s.lane l).state = .draining → w.endOfPass = false)
    (further : lastWordOfPlaylist (s.lane l) w = false) : endOfPlay s l (some w) = s := by
  have drained : ¬(decide ((s.lane l).state = .draining) && w.endOfPass) = true := by
    simp only [Bool.and_eq_true, decide_eq_true_eq]
    rintro ⟨draining, ends⟩
    rw [pass draining] at ends
    cases ends
  have last : ¬lastWordOfPlaylist (s.lane l) w = true := by simp [further]
  simp only [endOfPlay]
  rw [if_neg drained, if_neg last]

theorem lane_handed (now : Nat) (x : Lane) (w : PortWord) : (x.handed now w).state = x.state ∧
    (x.handed now w).playlist = x.playlist := by
  unfold Lane.handed
  dsimp only
  split <;> exact ⟨rfl, rfl⟩

theorem lastWordOfPlaylist_congr {x y : Lane} (playlist : y.playlist = x.playlist) (w : FetchWord) :
    lastWordOfPlaylist y w = lastWordOfPlaylist x w := by
  rw [lastWordOfPlaylist, lastWordOfPlaylist, playlist]

/-- The first clause of O20: a tick of a lane without rules in its chain. -/
theorem tick_without_rules (l : LaneId) (s : State) (next period : Nat) (e : Int) (o : OutCode) :
    let x := s.lane l
    let after (u : State) (y : Lane) : State :=
      let w : OutCode := o >>> (20 - x.config.wordLength.bits)
      handOver ((u.reach next).setLane l { y with
          pacing := .timed (next + period) period
          counters := { y.counters with ticks := countUp y.counters.ticks }
          prev := some e
          history := (w :: y.history).take 64 })
        l ⟨⟨w, .normal, false, false, .normal⟩, false, false⟩
    x.pacing = .timed next period → x.state = .running ∨ x.state = .draining → x.chain = [] →
    RulesQuiet s → curveStage s x.config.curve e = .code o →
      (x.config.source = .constant → x.config.constantCode = e →
        exec (.timedTick ⟨l, {}⟩) s = .next (after s x)) ∧
      (x.config.source = .live → s.link.state ≠ .lost → x.live.value = e →
        exec (.timedTick ⟨l, {}⟩) s = .next (after s
          { x with
            live := ⟨e, false, false⟩
            counters := { x.counters with
              stale := if x.live.fresh then x.counters.stale else countUp x.counters.stale } })) ∧
      (∀ q rest, x.config.source = .replay →
        x.queue.drop (min x.debt (x.queue.length - 1)) = q :: rest →
        e = (if traceWordFails q.word = true ∨ q.word.getLsbD 25 = true then x.prev.getD 0
          else (q.word.setWidth 24).toInt) →
        lastWordOfPlaylist x q.place = false → (x.state = .draining → q.place.endOfPass = false) →
          exec (.timedTick ⟨l, {}⟩) s = .next (after (replayTold s l q)
            { x with queue := rest, debt := x.debt - min x.debt (x.queue.length - 1) })) := by
  intro x after pacing plays chain quiet reads
  refine ⟨fun constant code => ?_, fun live linked code => ?_, fun q rest replay head code further pass => ?_⟩
  · have first := sourceStage_setLane_constant (t := s.reach next) (l := l) (x := ticking next period x) chain constant
    rw [show (ticking next period x).config.constantCode = e from code] at first
    exact exec_timedTick_presents (calm_of_quiet quiet) pacing
      (plays.symm.imp_right fun running => ⟨running, fun live => by rw [constant] at live; cases live⟩) first rfl
      quiet chain reads
  · subst code
    have first := sourceStage_live (t := s.reach next) (l := l) (x := ticking next period x) chain live
    have ticked := exec_timedTick_presents (o := o) (calm_of_quiet quiet) pacing
      (plays.symm.imp_right fun running => ⟨running, fun _ => linked⟩) first rfl quiet chain reads
    refine ticked.trans (congrArg (fun y => Host.Outcome.next (handOver ((s.reach next).setLane l y) l _)) ?_)
    rw [consumeLive_eq]
    rfl
  · rw [exec_timedTick_replay quiet pacing plays chain replay head code reads]
    have lane := HandOvers.lane_handOver_self (((replayTold s l q).reach next).setLane l
      (remembers e (wordOf x o) (takesHead rest (ticking next period x)))) l (plainHandOver (wordOf x o) false)
    rw [State.lane_setLane_same] at lane
    refine congrArg _ ((endOfPlay_stays ?_ ?_).trans rfl)
    · rw [lane, (lane_handed _ _ _).1]
      exact pass
    · rw [lane]
      exact (lastWordOfPlaylist_congr (lane_handed _ _ _).2 q.place).trans further

end Sys2Proof.QuietTicks
end

section
/-! PROOFS. Ticks of a RUNNING CONSTANT lane with one ACTIVE rule in its chain, and its HARD errors (R69 to R72, R77,
R82, R100, R106 to R108, R114, R115, R117 to R131, R138; log 10). -/

namespace Sys2Proof.QuietTicks

open Sys2Proof.Machine Sys2Proof.Conversion Sys2Proof.TimedTicks

/-! ## A lane and a rule that stand as given -/

/-- The part with lane `l` standing as `x` and rule `r` as `y`. -/
def placed (t : State) (l : LaneId) (r : RuleId) (x : Lane) (y : Rule) : State := (t.setRule r y).setLane l x

section Placed

variable (t : State) (l : LaneId) (r : RuleId) (x : Lane) (y y' : Rule)

theorem setRule_setRule : (t.setRule r y).setRule r y' = t.setRule r y' := by simp [State.setRule]

theorem setRule_self : t.setRule r (t.rule r) = t := by simp [State.setRule, State.rule]

theorem setLane_eq_placed : t.setLane l x = placed t l r x (t.rule r) := by rw [placed, setRule_self]

@[simp] theorem lane_placed : (placed t l r x y).lane l = x := State.lane_setLane_same _ l x

@[simp] theorem rule_placed : (placed t l r x y).rule r = y := by simp [placed]

@[simp] theorem modLane_placed (f : Lane → Lane) : (placed t l r x y).modLane l f = placed t l r (f x) y :=
  modLane_setLane _ l x f

@[simp] theorem setRule_placed : (placed t l r x y).setRule r y' = placed t l r x y' := by
  change ((t.setRule r y).setRule r y').setLane l x = _
  rw [setRule_setRule, placed]

@[simp] theorem modRule_placed (f : Rule → Rule) : (placed t l r x y).modRule r f = placed t l r x (f y) := by
  rw [State.modRule, rule_placed, setRule_placed]

@[simp] theorem countApplied_placed : countApplied (placed t l r x y) [r] = placed t l r x y.applies :=
  modRule_placed t l r x y _

@[simp] theorem applying_placed (gate : Bool) (cls : ActionClass) :
    applying (placed t l r x y) [(r, gate)] cls =
      if gate && decide (classOf y.fields.action = cls) then [r] else [] := by
  cases gate <;> by_cases is : classOf y.fields.action = cls <;> simp [applying, is]

end Placed

/-! ## Actions of another class leave what a stage has -/

section Classes

variable {a : Action}

theorem valueAction_other (other : classOf a ≠ .value) (e : Int) (noise : BitVec 23) (ramp : Int) :
    valueAction a e noise ramp = ⟨e, false, noise, ramp⟩ := by
  cases a <;> simp_all [classOf, valueAction]

theorem codeAction_other (other : classOf a ≠ .code) (o : OutCode) : codeAction a o = o := by
  cases a <;> simp_all [classOf, codeAction]

theorem timeWord_other (other : classOf a ≠ .time) (hold rest w : OutCode) (before : List OutCode) :
    timeWord a hold rest w before = w := by
  cases a <;> simp_all [classOf, timeWord]

theorem lineAfter_other (other : classOf a ≠ .line) (line : LineState) : lineAfter a line = line := by
  cases a <;> simp_all [classOf, lineAfter]

theorem sequenceAfter_other (other : classOf a ≠ .frame) (mode : SequenceMode) : sequenceAfter a mode = mode := by
  cases a <;> simp_all [classOf, sequenceAfter]

theorem orderSwap_other (other : classOf a ≠ .code) : decide (a = .orderSwap) = false := by
  rw [decide_eq_false_iff_not]
  rintro rfl
  exact other rfl

theorem checkBad_other (other : classOf a ≠ .frame) : decide (a = .checkBad) = false := by
  rw [decide_eq_false_iff_not]
  rintro rfl
  exact other rfl

end Classes

/-- SATURATIONS is a counter: what a tick reads of its lane stays. -/
theorem countSaturation_keeps (clamped : Bool) (x : Lane) : (x.countSaturation clamped).config = x.config ∧
    (x.countSaturation clamped).history = x.history ∧ (x.countSaturation clamped).holdWord = x.holdWord := by
  cases clamped <;> exact ⟨rfl, rfl, rfl⟩

/-- A lane that has pushed a word. -/
def pushes (w : OutCode) (x : Lane) : Lane := { x with history := pushHistory x.history w }

@[simp] theorem pushes_config (w : OutCode) (x : Lane) : (pushes w x).config = x.config := rfl

@[simp] theorem pushes_holdWord (w : OutCode) (x : Lane) : (pushes w x).holdWord = x.holdWord := rfl

/-! ## Steps 4 to 7 with one rule -/

section OneRule

variable {t : State} {l : LaneId} {r : RuleId} {x : Lane} {y : Rule} {e : Int} {o : OutCode} {mark : Option Nat}

/-- A rule that its gate holds back leaves the tick as it is without rules. -/
theorem lastSteps_held (reads : curveStage t x.config.curve e = .code o) :
    lastSteps .whole (placed t l r x y) l ⟨.code e mark, none, none⟩ [(r, false)] =
      .goOn (handOver (placed t l r (pushes (wordOf x o) x) y) l
        (plainHandOver (wordOf x o) false)) () := by
  have point : curveStageOver (placed t l r x y) (placed t l r x y) x.config.curve e = .code o := reads
  have unsaturated : Lane.countSaturation false x = x := rfl
  simp [lastSteps, Course.whole, step4, valueStage, unsaturated, point, countApplied, timeStage, finishTick, endOfPlay,
    wordOf, plainHandOver, pushes]

/-- The rule after a stage of this class, its gate passed. -/
def countedBy (cls : ActionClass) (y : Rule) : Rule := if classOf y.fields.action = cls then y.applies else y

@[simp] theorem countedBy_fields (cls : ActionClass) (y : Rule) : (countedBy cls y).fields = y.fields := by
  unfold countedBy
  split <;> rfl

theorem countedBy_eq {y z : Rule} (fields : z.fields = y.fields) (cls : ActionClass) :
    countedBy cls z = if classOf y.fields.action = cls then z.applies else z := by
  rw [countedBy, fields]

/-- The rule after its value stage: the generator and the accumulator move (R119, R120). -/
def valued (e : Int) (y : Rule) : Rule :=
  { countedBy .value y with
    noise := (valueAction y.fields.action e y.noise y.ramp).noise
    ramp := (valueAction y.fields.action e y.noise y.ramp).ramp }

@[simp] theorem valued_fields (e : Int) (y : Rule) : (valued e y).fields = y.fields := countedBy_fields .value y

theorem countApplied_class (cls : ActionClass) (x : Lane) (y : Rule) :
    countApplied (placed t l r x y) (if classOf y.fields.action = cls then [r] else []) =
      placed t l r x (countedBy cls y) := by
  unfold countedBy
  split
  · exact countApplied_placed t l r x y
  · rfl

theorem valueStage_class (x : Lane) (y : Rule) (e : Int) :
    valueStage (if classOf y.fields.action = .value then [r] else []) (placed t l r x y) e false =
      (placed t l r x (valued e y), (valueAction y.fields.action e y.noise y.ramp).e,
        (valueAction y.fields.action e y.noise y.ramp).clamped) := by
  by_cases value : classOf y.fields.action = .value
  · rw [if_pos value]
    simp only [valueStage, rule_placed, setRule_placed, Bool.false_or, valued, countedBy, if_pos value]
  · rw [if_neg value]
    simp only [valueStage, valued, countedBy, if_neg value, valueAction_other value]

theorem step4_applies
    (reads : curveStage t x.config.curve (valueAction y.fields.action e y.noise y.ramp).e = .code o) :
    let v := valueAction y.fields.action e y.noise y.ramp
    let w := wordOf x (codeAction y.fields.action o)
    step4 id (placed t l r x y) l [(r, true)] e =
      .goOn (placed t l r (pushes w (x.countSaturation v.clamped))
          (countedBy .code (valued e y)))
        ⟨w, decide (y.fields.action = .orderSwap),
          decide (classOf y.fields.action = .value ∨ classOf y.fields.action = .code), x.history⟩ := by
  intro v w
  have value : valueStage (if classOf y.fields.action = .value then [r] else []) (placed t l r x y) e false =
      (placed t l r x (valued e y), v.e, v.clamped) := valueStage_class x y e
  have word : formatWord x.config.wordLength (codeAction y.fields.action o) = w := rfl
  have reads : curveStage t x.config.curve v.e = .code o := reads
  clear_value v w
  obtain ⟨config, history, -⟩ := countSaturation_keeps v.clamped x
  generalize saturated : x.countSaturation v.clamped = x₁ at config history
  have point : curveStageOver (placed t l r x₁ (valued e y)) (placed t l r x₁ (valued e y)) x.config.curve v.e =
    .code o := reads
  have counted := countApplied_class (t := t) (l := l) (r := r) .code x₁ (valued e y)
  rw [valued_fields] at counted
  simp only [step4, applying_placed, valued_fields, Bool.true_and, decide_eq_true_eq, value, modLane_placed,
    saturated, lane_placed, config, id, point, counted, history, pushes]
  by_cases code : classOf y.fields.action = .code
  · simp [code, word]
  · by_cases value : classOf y.fields.action = .value <;>
      simp [code, value, codeAction_other code, orderSwap_other code, ← word]

theorem timeStage_applies (p : Path) : timeStage (placed t l r x y) l [(r, true)] p =
    (placed t l r x (countedBy .time y),
      ⟨timeWord y.fields.action x.holdWord x.config.restWord p.word p.before,
        decide (classOf y.fields.action = .time), p.swap, p.faulted || decide (classOf y.fields.action = .time)⟩) := by
  by_cases time : classOf y.fields.action = .time
  · simp [timeStage, time, countedBy]
  · simp [timeStage, time, countedBy, timeWord_other time]

theorem finishTick_applies (c : Chosen) : finishTick (placed t l r x y) l [(r, true)] c =
    handOver (placed t l r x (countedBy .frame (countedBy .line y))) l
      ⟨⟨c.word, lineAfter y.fields.action .normal, c.swap, decide (y.fields.action = .checkBad),
          sequenceAfter y.fields.action .normal⟩,
        c.held, c.faulted || decide (classOf y.fields.action = .line) || decide (classOf y.fields.action = .frame)⟩ := by
  by_cases line : classOf y.fields.action = .line
  · have frame : classOf y.fields.action ≠ .frame := by rw [line]; exact fun same => by cases same
    have unframed : countedBy .frame (countedBy .line y) = y.applies := by
      rw [countedBy_eq (countedBy_fields .line y), if_neg frame, countedBy, if_pos line]
    simp [finishTick, line, unframed, checkBad_other frame, sequenceAfter_other frame]
  · by_cases frame : classOf y.fields.action = .frame
    · simp [finishTick, frame, countedBy, lineAfter_other line]
    · simp [finishTick, line, frame, countedBy, lineAfter_other line, checkBad_other frame, sequenceAfter_other frame,
        countApplied]

/-- A rule is counted in the stage of its class. -/
theorem counted_once (e : Int) (y : Rule) :
    countedBy .frame (countedBy .line (countedBy .time (countedBy .code (valued e y)))) =
      { y.applies with
        noise := (valueAction y.fields.action e y.noise y.ramp).noise
        ramp := (valueAction y.fields.action e y.noise y.ramp).ramp } := by
  rw [countedBy_eq (y := y) (by simp), countedBy_eq (y := y) (by simp), countedBy_eq (y := y) (by simp),
    countedBy_eq (y := y) (by simp), valued, countedBy]
  cases classOf y.fields.action <;> rfl

/-- A rule that applies alters the value, the code, the word, the line state or the frame flags, by its class. -/
theorem lastSteps_applies
    (reads : curveStage t x.config.curve (valueAction y.fields.action e y.noise y.ramp).e = .code o) :
    let v := valueAction y.fields.action e y.noise y.ramp
    let w := wordOf x (codeAction y.fields.action o)
    lastSteps .whole (placed t l r x y) l ⟨.code e mark, none, none⟩ [(r, true)] =
      .goOn (handOver (placed t l r
          (pushes w (x.countSaturation v.clamped))
          { y.applies with noise := v.noise, ramp := v.ramp }) l
        ⟨⟨timeWord y.fields.action x.holdWord x.config.restWord w x.history, lineAfter y.fields.action .normal,
            decide (y.fields.action = .orderSwap), decide (y.fields.action = .checkBad),
            sequenceAfter y.fields.action .normal⟩,
          decide (classOf y.fields.action = .time), true⟩) () := by
  intro v w
  obtain ⟨config, -, hold⟩ := countSaturation_keeps v.clamped x
  have fourth := step4_applies (r := r) (l := l) reads
  have faulted : (decide (classOf y.fields.action = .value ∨ classOf y.fields.action = .code) ||
      decide (classOf y.fields.action = .time) || decide (classOf y.fields.action = .line) ||
      decide (classOf y.fields.action = .frame)) = true := by
    cases classOf y.fields.action <;> rfl
  simp only [lastSteps, Course.whole, fourth, timeStage_applies, finishTick_applies, countedBy_fields, valued_fields,
    counted_once, endOfPlay, faulted, pushes_config, pushes_holdWord, config, hold, v, w]

end OneRule

/-! ## Steps 2 and 3 with one rule -/

/-- The generator after the draws of a chain of one rule (R106, R107). -/
def gateAfter (y : Rule) (g : BitVec 16) : BitVec 16 := if y.fields.intermittency = 0 then g else gateStep g

/-- Whether the rule of a chain of one passes its gate (R107). -/
def passesGate (y : Rule) (g : BitVec 16) : Bool :=
  decide (y.fields.intermittency = 0) || decide (y.fields.intermittency ≤ (gateAfter y g).toNat / 256)

/-- An ACTIVE rule in the chain after a counting tick (R100). -/
def countedDown (y : Rule) : Rule :=
  if y.fields.unit = .ticks ∧ 0 < y.durationCount then
    { y with durationCount := y.durationCount - 1, endDue := decide (y.durationCount = 1) }
  else y

theorem countedDown_eq (y : Rule) : ∃ count ends,
    countedDown y = { y with durationCount := count, endDue := ends } := by
  unfold countedDown
  split
  · exact ⟨_, _, rfl⟩
  · exact ⟨y.durationCount, y.endDue, rfl⟩

section Chained

variable {u : State} {l : LaneId} {r : RuleId} {x : Lane} {e : Int} {mark : Option Nat}

theorem drawGates_one (level : RuleId → Nat) (y : Rule) (g : BitVec 16) (is : level r = y.fields.intermittency) :
    drawGates level [r] g = ([(r, passesGate y g)], gateAfter y g) := by
  by_cases zero : y.fields.intermittency = 0
  · simp [drawGates, passesGate, gateAfter, is, zero]
  · simp [drawGates, passesGate, gateAfter, is, zero, gateValue]

theorem countTick_active {y : Rule} (active : y.state = .active) (l : LaneId) : y.countTick l true = countedDown y := by
  by_cases counts : y.fields.unit = .ticks ∧ 0 < y.durationCount
  · rw [countedDown, if_pos counts]
    exact FaultRules.countTick_duration ⟨counts.1, active, rfl, counts.2⟩
  · rw [countedDown, if_neg counts]
    refine FaultRules.countTick_other (fun delays => ?_) fun lasts => counts ⟨lasts.1, lasts.2.2.2⟩
    have triggered := delays.2.1
    rw [active] at triggered
    cases triggered

/-- Step 3 of a chain of one ACTIVE rule, no other rule moving: its gate draws, and its TICKS are counted. -/
theorem step3_one (untriggered : ∀ q, (u.rule q).state ≠ .triggered) (chain : x.chain = [r])
    (active : (u.rule r).state = .active) (passes : (u.rule r).codeOk = true) :
    step3 (u.setLane l x) l =
      .goOn (placed u l r { x with gate := gateAfter (u.rule r) x.gate } (countedDown (u.rule r)))
        [(r, passesGate (u.rule r) x.gate)] := by
  have lane : (u.setLane l x).lane l = x := State.lane_setLane_same ..
  have draws : drawGates (FaultRules.levels (u.setLane l x)) x.chain x.gate =
      ([(r, passesGate (u.rule r) x.gate)], gateAfter (u.rule r) x.gate) := by
    rw [chain]
    exact drawGates_one _ (u.rule r) x.gate rfl
  have counts : FaultRules.counted (u.setLane l x) l =
      placed u l r { x with gate := gateAfter (u.rule r) x.gate } (countedDown (u.rule r)) := by
    rw [FaultRules.counted, lane, draws, modLane_setLane]
    have one := FaultRules.modRule_eq_mapRules (u.setLane l { x with gate := gateAfter (u.rule r) x.gate }) r countedDown
    refine .trans (FaultRules.mapRules_congr fun q => ?_) (one.symm.trans rfl)
    rw [State.rule_setLane, chain]
    by_cases same : q = r
    · subst same
      rw [if_pos rfl, ← countTick_active active l]
      simp
    · have outside : [r].contains q = false := by simpa using same
      rw [if_neg same, outside, countTick_calm untriggered]
  rw [FaultRules.step3_passes (by rw [lane, chain]; simpa using passes), counts, lane, draws]

theorem laterSteps_one (quiet : RulesQuiet u) (chain : x.chain = [r]) (active : (u.rule r).state = .active)
    (passes : (u.rule r).codeOk = true) :
    laterSteps .whole (u.setLane l x) l ⟨.code e mark, none, none⟩ =
      lastSteps .whole
        (placed u l r { x with prev := some e, gate := gateAfter (u.rule r) x.gate } (countedDown (u.rule r))) l
        ⟨.code e mark, none, none⟩ [(r, passesGate (u.rule r) x.gate)] := by
  have second : step2 (u.setLane l x) l (.code e mark) = .goOn (u.setLane l { x with prev := some e }) [] := by
    rw [step2_quiet (s := u.setLane l x) quiet, modLane_setLane]
  exact laterSteps_last (source := ⟨.code e mark, none, none⟩) second
    (step3_one (x := { x with prev := some e }) (fun q => (quiet q).2.1) chain active passes)

theorem freezers_none {t : State} (others : ∀ i ∈ x.chain, (t.rule i).fields.action ≠ .freeze) :
    freezers (t.setLane l x) l = [] := by
  rw [freezers, State.lane_setLane_same, List.filter_eq_nil_iff]
  intro i among
  rw [decide_eq_true_eq]
  exact others i among

theorem sourceStage_constant_chained {t : State} (others : ∀ i ∈ x.chain, (t.rule i).fields.action ≠ .freeze)
    (constant : x.config.source = .constant) :
    sourceStage (t.setLane l x) l = (t.setLane l x, ⟨.code x.config.constantCode none, none, none⟩) := by
  simp only [sourceStage, freezers_none others, State.lane_setLane_same, constant]

end Chained

theorem countSaturation_eq (clamped : Bool) (x : Lane) : x.countSaturation clamped = { x with
    counters := { x.counters with
      saturations := if clamped then countUp x.counters.saturations else x.counters.saturations } } := by
  cases clamped <;> rfl

/-- The second clause of O20: a tick with one ACTIVE rule in the chain. -/
theorem tick_with_one_rule (l : LaneId) (r : RuleId) (s : State) (next period : Nat) (o : OutCode) :
    let x := s.lane l
    let y := s.rule r
    let a := y.fields.action
    let gate : BitVec 16 := if y.fields.intermittency = 0 then x.gate else gateStep x.gate
    let applies : Bool := y.fields.intermittency = 0 || decide (y.fields.intermittency ≤ gate.toNat / 256)
    let value : ValueResult := if applies then valueAction a x.config.constantCode y.noise y.ramp
      else ⟨x.config.constantCode, false, y.noise, y.ramp⟩
    let out : OutCode := if applies then
        match a with
        | .force m k => (o &&& m) ||| k
        | .flip m => o ^^^ m
        | .codeStuck c => c
        | _ => o
      else o
    let w : OutCode := out >>> (20 - x.config.wordLength.bits)
    let word : OutCode := if applies then
        match a with
        | .drop => if x.sentSinceStart then x.lastWord else x.config.restWord
        | .delay n => ((w :: x.history)[n]?).getD x.config.restWord
        | _ => w
      else w
    let line : LineState := if applies then match a with | .line st => st | _ => .normal else .normal
    let sequence : SequenceMode := if applies then
        match a with
        | .seqHold => .hold
        | .seqJump k => .jump k
        | _ => .normal
      else .normal
    let counted : Rule := if y.fields.unit = .ticks ∧ 0 < y.durationCount then
        { y with durationCount := y.durationCount - 1, endDue := decide (y.durationCount = 1) }
      else y
    x.pacing = .timed next period → x.state = .running → x.config.source = .constant → x.chain = [r] →
    y.state = .active → y.codeOk = true → a ≠ .freeze →
    (∀ j, (s.rule j).state ≠ .armed ∧ (s.rule j).state ≠ .triggered ∧ (s.rule j).endDue = false) →
    curveStage s x.config.curve value.e = .code o →
      exec (.timedTick ⟨l, {}⟩) s = .next (handOver
        (((s.reach next).setRule r (if applies then
            { counted with applied := countUp y.applied, noise := value.noise, ramp := value.ramp }
          else counted)).setLane l { x with
            pacing := .timed (next + period) period
            gate := gate
            prev := some x.config.constantCode
            history := (w :: x.history).take 64
            counters := { x.counters with
              ticks := countUp x.counters.ticks
              saturations := if value.clamped then countUp x.counters.saturations
                else x.counters.saturations } })
        l ⟨⟨word, line, applies && decide (a = .orderSwap), applies && decide (a = .checkBad), sequence⟩,
          applies && decide (classOf a = .time), applies⟩) := by
  intro x y a gate applies value out w word line sequence counted pacing running constant chain active passes unfrozen
    quiet reads
  have others (i : RuleId) (among : i ∈ (ticking next period x).chain) :
      ((s.reach next).rule i).fields.action ≠ .freeze := by
    have inChain : i ∈ x.chain := among
    rw [chain] at inChain
    rw [List.mem_singleton.1 inChain]
    exact unfrozen
  have ticked := exec_timedTick_plays (calm_of_quiet quiet) pacing
    (.inr ⟨running, fun live => by rw [constant] at live; cases live⟩)
    (sourceStage_constant_chained (t := s.reach next) (l := l) (x := ticking next period x) others constant)
  rw [ticked]
  have later := laterSteps_one (u := s.reach next) (l := l) (x := ticking next period x) (e := x.config.constantCode)
    (mark := none) quiet chain active passes
  change Host.Outcome.next (endOfTick (laterSteps .whole ((s.reach next).setLane l (ticking next period x)) l
    ⟨.code x.config.constantCode none, none, none⟩)) = _
  have gated : passesGate ((s.reach next).rule r) (ticking next period x).gate = applies := rfl
  have counts : countedDown ((s.reach next).rule r) = counted := rfl
  rw [later, gated, counts]
  obtain ⟨count, ends, down⟩ : ∃ count ends, counted = { y with durationCount := count, endDue := ends } :=
    countedDown_eq y
  clear_value counted applies
  subst down
  cases applies with
  | false =>
    exact congrArg (fun f => Host.Outcome.next (endOfTick f)) (lastSteps_held (t := s.reach next) (l := l) (r := r)
      (e := x.config.constantCode) (mark := none)
      (x := { ticking next period x with prev := some x.config.constantCode, gate := gate })
      (y := { y with durationCount := count, endDue := ends }) reads)
  | true =>
    have steps := lastSteps_applies (t := s.reach next) (l := l) (r := r) (e := x.config.constantCode) (mark := none)
      (x := { ticking next period x with prev := some x.config.constantCode, gate := gate })
      (y := { y with durationCount := count, endDue := ends }) reads
    dsimp only at steps
    have action : y.fields.action = a := rfl
    rw [countSaturation_eq, action] at steps
    clear_value a
    cases a with
    | freeze => exact absurd rfl unfrozen
    | _ => exact congrArg (fun f => Host.Outcome.next (endOfTick f)) steps

/-! ## HARD errors of a tick (R77, R108, R138) -/

/-- A rule in one chain alone leaves it, and nothing else. -/
theorem leaveChains_one {t : State} {l : LaneId} {r : RuleId} (x : Lane)
    (alone : ∀ k, k ≠ l → r ∉ (t.lane k).chain) :
    leaveChains (t.setLane l x) r = t.setLane l { x with chain := x.chain.erase r } := by
  have lanes : (leaveChains (t.setLane l x) r).lanes = (t.setLane l { x with chain := x.chain.erase r }).lanes := by
    refine FaultRules.lanes_ext fun k => ?_
    rw [FaultRules.lane_leaveChains, State.lane_setLane, State.lane_setLane]
    by_cases here : l = k
    · rw [if_pos here, if_pos here]
    · rw [if_neg here, if_neg here, List.erase_of_not_mem (alone _ (Ne.symm here))]
  rw [leaveChains, ResetPin.mapLanes_eq_with] at lanes ⊢
  exact congrArg (fun lanes => { t.setLane l x with lanes := lanes }) lanes

/-- The third clause of O20: a point or a rule that fails its check ends the tick. -/
theorem tick_with_hard_error (l : LaneId) (s : State) (next period : Nat) :
    let x := s.lane l
    let ended (chain : List RuleId) : State := (s.reach next).setLane l { x with
      pacing := .timed (next + period) period
      counters := { x.counters with ticks := countUp x.counters.ticks }
      prev := some x.config.constantCode
      chain := chain }
    x.pacing = .timed next period → x.state = .running → x.config.source = .constant → RulesQuiet s →
      (∀ c k, x.chain = [] → curveStage s x.config.curve x.config.constantCode = .fails c k →
        exec (.timedTick ⟨l, {}⟩) s = .next (report (ended []) (.curveCheck l c k))) ∧
      (∀ r, x.chain = [r] → (s.rule r).fields.action ≠ .freeze → (s.rule r).codeOk = false →
        (∀ k, k ≠ l → r ∉ (s.lane k).chain) →
          exec (.timedTick ⟨l, {}⟩) s = .next (report ((ended []).setRule r .vacant) (.ruleCheck l r))) := by
  intro x ended pacing running constant quiet
  have ticked (others : ∀ i ∈ x.chain, (s.rule i).fields.action ≠ .freeze) := exec_timedTick_plays
    (calm_of_quiet quiet) pacing (.inr ⟨running, fun live => by rw [constant] at live; cases live⟩)
    (sourceStage_constant_chained (t := s.reach next) (l := l) (x := ticking next period x) others constant)
  refine ⟨fun c k chain fails => ?_, fun r chain unfrozen fails alone => ?_⟩
  · have point := laterSteps_point (u := s.reach next) (l := l) (x := ticking next period x) (mark := none)
      (played := none) (error := none) quiet chain fails
    have emptied : ended [] =
        (s.reach next).setLane l { ticking next period x with prev := some x.config.constantCode } := by
      simp only [ended, ← chain]
      rfl
    rw [ticked (by rw [chain]; exact fun i none => absurd none List.not_mem_nil), emptied]
    exact congrArg (fun f => Host.Outcome.next (endOfTick f)) point
  · have second : step2 ((s.reach next).setLane l (ticking next period x)) l (.code x.config.constantCode none) =
        .goOn ((s.reach next).setLane l { ticking next period x with prev := some x.config.constantCode }) [] := by
      rw [step2_quiet (s := (s.reach next).setLane l (ticking next period x)) quiet, modLane_setLane]
    have third := FaultRules.step3_fails (l := l) (before := []) (later := []) (r := r)
      (s := (s.reach next).setLane l { ticking next period x with prev := some x.config.constantCode })
      (by rw [State.lane_setLane_same]; exact chain) (fun i none => absurd none List.not_mem_nil) fails
    rw [vacate, leaveChains_one (t := s.reach next) _ alone] at third
    have erased : (ticking next period x).chain.erase r = [] := by
      change x.chain.erase r = []
      rw [chain]
      simp
    rw [ticked (fun i among => by
      rw [chain] at among
      rw [List.mem_singleton.1 among]
      exact unfrozen)]
    have later := laterSteps_gates (source := ⟨.code x.config.constantCode none, none, none⟩) second third
    rw [erased] at later
    exact congrArg (fun f => Host.Outcome.next (endOfTick f)) later

/-- Settles O20: without rules in the chain, with one, and with a HARD error. -/
theorem quietTickConvertsItsCode : Obligations.QuietTickConvertsItsCode :=
  ⟨tick_without_rules, tick_with_one_rule, tick_with_hard_error⟩

end Sys2Proof.QuietTicks
end

section
/-! PROOFS. Ticks without a word of their own: a LOST link, an underrun, a HALTED lane and FREEZE (R11, R20, R22,
R60 to R62, R77, R108, R126, R127; log 13, log 23, log 42). -/

namespace Sys2Proof.FallbackTicks

open Sys2Proof.Machine Sys2Proof.Conversion Sys2Proof.TimedTicks Sys2Proof.QuietTicks

/-! ## A LOST link, an underrun, a HALTED lane -/

section Unpresented

variable {s t : State} {l : LaneId} {x : Lane} {next period : Nat}

theorem laneTick_settled (calm : RulesCalm t) : laneTick .whole (t.setLane l x) l =
    match x.state with
    | .off => (t.setLane l x, [])
    | .primed => (t.setLane l x, [])
    | .running =>
      if x.config.source = .live && t.link.state = .lost then (lostTick (t.setLane l x) l, [])
      else fullTick .whole (t.setLane l x) l
    | .draining => fullTick .whole (t.setLane l x) l
    | .halted => if x.config.fallback = .live then haltedTick .whole (t.setLane l x) l else (t.setLane l x, []) := by
  have settled : Course.whole.takeEnds (t.setLane l x) = t.setLane l x := settle_calm calm
  unfold laneTick
  dsimp only
  rw [settled, State.lane_setLane_same]
  rfl

theorem exec_timedTick_lost (calm : RulesCalm s) (pacing : (s.lane l).pacing = .timed next period)
    (running : (s.lane l).state = .running) (live : (s.lane l).config.source = .live) (lost : s.link.state = .lost) :
    exec (.timedTick ⟨l, {}⟩) s = .next (handOver ((s.reach next).setLane l (ticking next period { s.lane l with
      counters := { (s.lane l).counters with lostTicks := countUp (s.lane l).counters.lostTicks } })) l
      (plainHandOver (s.lane l).lostWord true)) := by
  have both : (decide ((s.lane l).config.source = .live) && decide ((s.reach next).link.state = .lost)) = true := by
    rw [Bool.and_eq_true, decide_eq_true_eq, decide_eq_true_eq]
    exact ⟨live, lost⟩
  rw [exec_timedTick pacing, laneTick_settled (t := s.reach next) calm]
  simp only [running]
  rw [if_pos both, lostTick, modLane_setLane, State.lane_setLane_same]
  rfl

theorem sourceStage_underrun (chain : x.chain = []) (replay : x.config.source = .replay) (queue : x.queue = []) :
    sourceStage (t.setLane l x) l = (t.setLane l x.underrun, ⟨.underrun, none, none⟩) := by
  have empty : x.payDebt.queue = [] := by simp [Lane.payDebt, queue]
  simp only [sourceStage, freezers_unchained chain, State.lane_setLane_same, replay, empty, setLane_setLane]

theorem exec_timedTick_underrun (calm : RulesCalm s) (pacing : (s.lane l).pacing = .timed next period)
    (plays : (s.lane l).state = .running ∨ (s.lane l).state = .draining) (chain : (s.lane l).chain = [])
    (replay : (s.lane l).config.source = .replay) (queue : (s.lane l).queue = []) :
    exec (.timedTick ⟨l, {}⟩) s = .next (handOver ((s.reach next).setLane l (ticking next period (s.lane l)).underrun) l
      (plainHandOver (s.lane l).holdWord true)) := by
  have third : step3 ((s.reach next).setLane l (ticking next period (s.lane l)).underrun) l =
      .goOn ((s.reach next).setLane l (ticking next period (s.lane l)).underrun) [] :=
    step3_unchained (s := (s.reach next).setLane l (ticking next period (s.lane l)).underrun) (fun r => (calm r).1)
      (by rw [State.lane_setLane_same]; exact chain)
  have later := laterSteps_last (l := l) (source := ⟨.underrun, none, none⟩)
    (s := (s.reach next).setLane l (ticking next period (s.lane l)).underrun) rfl third
  have last : lastSteps .whole ((s.reach next).setLane l (ticking next period (s.lane l)).underrun) l
      ⟨.underrun, none, none⟩ [] =
      .goOn (handOver ((s.reach next).setLane l (ticking next period (s.lane l)).underrun) l
        (plainHandOver (s.lane l).holdWord true)) () := by
    simp only [lastSteps, State.lane_setLane_same]
    rfl
  rw [exec_timedTick_plays calm pacing
    (plays.symm.imp_right fun running => ⟨running, fun live => by rw [replay] at live; cases live⟩)
    (sourceStage_underrun (t := s.reach next) (l := l) (x := ticking next period (s.lane l)) chain replay queue)]
  exact congrArg (fun f => Host.Outcome.next (endOfTick f)) (later.trans last)

/-- A report leaves a lane out of play as it is, but for its chain. -/
theorem holdWord_report (out : x.state.inPlay = false) (e : ErrorDetail) :
    ((report (t.setLane l x) e).lane l).holdWord = x.holdWord := by
  have lane : (t.setLane l x).lane l = x := State.lane_setLane_same ..
  have kept := (Reports.stopped_takeReport (t.setLane l x) (descriptorOf (t.setLane l x) e)).kept l fun both => by
    rw [lane, out] at both
    exact Bool.false_ne_true both.2
  rw [ite_self, lane] at kept
  have word := congrArg Lane.holdWord kept
  exact word.trans rfl

theorem exec_timedTick_halted (calm : RulesCalm s) (pacing : (s.lane l).pacing = .timed next period)
    (halted : (s.lane l).state = .halted) (live : (s.lane l).config.fallback = .live) :
    exec (.timedTick ⟨l, {}⟩) s =
      .next (haltedTick .whole
        ((s.reach next).setLane l { s.lane l with pacing := .timed (next + period) period }) l).1 := by
  rw [exec_timedTick pacing, laneTick_settled (t := s.reach next) calm]
  simp only [halted]
  rw [if_pos live]

theorem haltedTick_lost (lost : t.link.state = .lost) : haltedTick .whole (t.setLane l x) l =
    (handOver (t.setLane l x.countTickTaken) l (plainHandOver x.holdWord true), []) := by
  have still : ((t.setLane l x.countTickTaken).link.state = .lost) := lost
  simp only [haltedTick, modLane_setLane, still, if_true, State.lane_setLane_same]
  rfl

/-- A HALTED lane that consumes its live register (R11, R19). -/
def senses (x : Lane) : Lane := { x.consumeLive with prev := some x.live.value }

theorem senses_eq (x : Lane) : senses x = { x with
    live := ⟨x.live.value, false, false⟩
    prev := some x.live.value
    counters := { x.counters with stale := if x.live.fresh then x.counters.stale else countUp x.counters.stale } } := by
  rw [senses, consumeLive_eq]

theorem senses_config (x : Lane) : (senses x).config = x.config := by rw [senses_eq]

section Linked

variable {y : Lane} (linked : t.link.state ≠ .lost) (counted : x.countTickTaken = y)

include linked counted

theorem haltedTick_code {o : OutCode} (reads : curveStage t y.config.curve y.live.value = .code o) :
    (haltedTick .whole (t.setLane l x) l).1 =
      handOver (t.setLane l (pushes (wordOf y o) (senses y))) l (plainHandOver (wordOf y o) false) := by
  have still : ¬(t.setLane l y).link.state = .lost := linked
  have sensed : (t.setLane l y).modLane l (fun x => { x.consumeLive with prev := some y.live.value }) =
      t.setLane l (senses y) := modLane_setLane ..
  have point : curveStageOver (t.setLane l (senses y)) (Course.whole.upper (t.setLane l (senses y)))
      (senses y).config.curve y.live.value = .code o := by
    rw [senses_config]
    exact reads
  unfold haltedTick
  dsimp only
  rw [modLane_setLane, counted, if_neg still, State.lane_setLane_same, sensed, State.lane_setLane_same, point]
  simp only [modLane_setLane, senses_config]
  rfl

theorem haltedTick_point {c : CurveId} {k : Nat} (halted : y.state = .halted)
    (fails : curveStage t y.config.curve y.live.value = .fails c k) :
    (haltedTick .whole (t.setLane l x) l).1 =
      handOver (report (t.setLane l (senses y)) (.curveCheck l c k)) l (plainHandOver y.holdWord true) := by
  have still : ¬(t.setLane l y).link.state = .lost := linked
  have sensed : (t.setLane l y).modLane l (fun x => { x.consumeLive with prev := some y.live.value }) =
      t.setLane l (senses y) := modLane_setLane ..
  have point : curveStageOver (t.setLane l (senses y)) (Course.whole.upper (t.setLane l (senses y)))
      (senses y).config.curve y.live.value = .fails c k := by
    rw [senses_config]
    exact fails
  have hold : ((report (t.setLane l (senses y)) (.curveCheck l c k)).lane l).holdWord = y.holdWord := by
    rw [holdWord_report (by rw [senses_eq]; exact congrArg LaneState.inPlay halted), senses_eq]
    rfl
  unfold haltedTick
  dsimp only
  rw [modLane_setLane, counted, if_neg still, State.lane_setLane_same, sensed, State.lane_setLane_same, point]
  exact congrArg (fun w => handOver _ l (plainHandOver w true)) hold

end Linked

section HaltedRow

variable (calm : RulesCalm s) (pacing : (s.lane l).pacing = .timed next period) (halted : (s.lane l).state = .halted)
  (live : (s.lane l).config.fallback = .live) (linked : s.link.state ≠ .lost)

include calm pacing halted live linked

theorem exec_timedTick_halted_code {o : OutCode}
    (reads : curveStage s (s.lane l).config.curve (s.lane l).live.value = .code o) : exec (.timedTick ⟨l, {}⟩) s =
      .next (handOver ((s.reach next).setLane l
          (pushes (wordOf (s.lane l) o) (senses (ticking next period (s.lane l))))) l
        (plainHandOver (wordOf (s.lane l) o) false)) :=
  (exec_timedTick_halted calm pacing halted live).trans (congrArg _ (haltedTick_code (t := s.reach next) (l := l)
    (x := { s.lane l with pacing := .timed (next + period) period }) linked rfl reads))

theorem exec_timedTick_halted_point {c : CurveId} {k : Nat}
    (fails : curveStage s (s.lane l).config.curve (s.lane l).live.value = .fails c k) : exec (.timedTick ⟨l, {}⟩) s =
      .next (handOver (report ((s.reach next).setLane l (senses (ticking next period (s.lane l)))) (.curveCheck l c k)) l
        (plainHandOver (s.lane l).holdWord true)) :=
  (exec_timedTick_halted calm pacing halted live).trans (congrArg _ (haltedTick_point (t := s.reach next) (l := l)
    (x := { s.lane l with pacing := .timed (next + period) period }) linked rfl halted fails))

end HaltedRow

end Unpresented

/-! ## FREEZE (R108, R126, R127; log 23, log 42) -/

section Frozen

variable {s t : State} {l : LaneId} {x : Lane} {r : RuleId} {next period : Nat}

/-- The one FREEZE rule of a chain acts at step 1, and applies there. -/
theorem sourceStage_frozen (freezes : freezers (t.setLane l x) l = [r]) :
    sourceStage (t.setLane l x) l = (placed t l r x (t.rule r).applies, ⟨.frozen [r], none, none⟩) := by
  simp only [sourceStage, freezes]
  rw [setLane_eq_placed t l r x, countApplied_placed]

/-- Steps 4 to 7 of a FREEZE tick whose gates are those of FREEZE rules that have applied. -/
theorem lastSteps_frozen {c : Course} {rules : List RuleId} {gates : List (RuleId × Bool)}
    (given : ∀ g ∈ gates, g.1 ∈ rules ∧ (s.rule g.1).fields.action = .freeze) :
    lastSteps c s l ⟨.frozen rules, none, none⟩ gates =
      .goOn (handOver s l ⟨⟨(s.lane l).holdWord, .normal, false, false, .normal⟩, true, true⟩) () := by
  have counted : ((gates.map Prod.fst).filter fun i => (s.rule i).fields.action = .freeze).filter
      (fun i => !rules.contains i) = [] := by
    rw [List.filter_eq_nil_iff]
    intro i among
    obtain ⟨g, inGates, rfl⟩ := List.mem_map.1 (List.mem_filter.1 among).1
    simp [(given g inGates).1]
  have unclassed (cls : ActionClass) (other : cls ≠ .time) : applying s gates cls = [] := by
    rw [applying, List.map_eq_nil_iff, List.filter_eq_nil_iff]
    intro g inGates
    rw [(given g inGates).2]
    simp [classOf, Ne.symm other]
  have lines : applying s gates .line = [] := unclassed .line (fun same => by cases same)
  have frames : applying s gates .frame = [] := unclassed .frame (fun same => by cases same)
  simp only [lastSteps, freezeStage, counted, countApplied, List.foldl_nil, finishTick, lines, frames, List.append_nil,
    List.any_nil, List.isEmpty_nil, Bool.not_true, Bool.or_false]

theorem countedDown_applies (y : Rule) :
    countedDown y.applies = { countedDown y with applied := countUp y.applied } := by
  by_cases counts : y.fields.unit = .ticks ∧ 0 < y.durationCount
  · have same : y.applies.fields.unit = .ticks ∧ 0 < y.applies.durationCount := counts
    rw [countedDown, countedDown, if_pos counts, if_pos same]
    rfl
  · have same : ¬(y.applies.fields.unit = .ticks ∧ 0 < y.applies.durationCount) := counts
    rw [countedDown, countedDown, if_neg counts, if_neg same]
    rfl

/-- The rules of a chain in which `r` alone freezes, whatever the lane else holds. -/
theorem freezers_eq {rules : List RuleId}
    (freezes : (x.chain.filter fun i => (t.rule i).fields.action = .freeze) = rules) :
    freezers (t.setLane l x) l = rules := by
  rw [freezers, State.lane_setLane_same]
  exact freezes

theorem untriggered_placed {y : Rule} (others : ∀ i, (t.rule i).state ≠ .triggered) (self : y.state ≠ .triggered)
    (i : RuleId) : ((t.setRule r y).rule i).state ≠ .triggered := by
  rw [State.rule_setRule]
  split
  · exact self
  · exact others i

/-- A FREEZE tick of one rule. -/
theorem exec_timedTick_frozen (calm : RulesCalm s) (pacing : (s.lane l).pacing = .timed next period)
    (running : (s.lane l).state = .running) (linked : (s.lane l).config.source = .live → s.link.state ≠ .lost)
    (chain : (s.lane l).chain = [r]) (active : (s.rule r).state = .active)
    (freezes : (s.rule r).fields.action = .freeze) (passes : (s.rule r).codeOk = true)
    (always : (s.rule r).fields.intermittency = 0) :
    exec (.timedTick ⟨l, {}⟩) s = .next (handOver
      (placed (s.reach next) l r (ticking next period (s.lane l))
        { countedDown (s.rule r) with applied := countUp (s.rule r).applied }) l
      ⟨⟨(s.lane l).holdWord, .normal, false, false, .normal⟩, true, true⟩) := by
  have froze : freezers ((s.reach next).setLane l (ticking next period (s.lane l))) l = [r] :=
    freezers_eq (by
      change (s.lane l).chain.filter (fun i => (s.rule i).fields.action = .freeze) = [r]
      rw [chain]
      simp [freezes])
  obtain ⟨y, is⟩ : ∃ y, y = (s.rule r).applies := ⟨_, rfl⟩
  have ticked : exec (.timedTick ⟨l, {}⟩) s = .next (endOfTick (laterSteps .whole
      (placed (s.reach next) l r (ticking next period (s.lane l)) y) l ⟨.frozen [r], none, none⟩)) := by
    rw [is]
    exact exec_timedTick_plays calm pacing (.inr ⟨running, linked⟩) (sourceStage_frozen froze)
  have calmer (i : RuleId) : (((s.reach next).setRule r y).rule i).state ≠ .triggered :=
    untriggered_placed (t := s.reach next) (fun i => (calm i).1) (by rw [is]; exact (calm r).1) i
  have self : ((s.reach next).setRule r y).rule r = y := State.rule_setRule_same ..
  have second := step2_frozen (s := placed (s.reach next) l r (ticking next period (s.lane l)) y) calmer l [r]
  have third := step3_one (u := (s.reach next).setRule r y) (l := l) (x := ticking next period (s.lane l)) (r := r) calmer
    chain (by rw [self, is]; exact active) (by rw [self, is]; exact passes)
  have gate : gateAfter y (ticking next period (s.lane l)).gate = (s.lane l).gate := by
    rw [gateAfter, is]
    exact if_pos always
  have opens : passesGate y (ticking next period (s.lane l)).gate = true := by
    rw [passesGate, is]
    exact Bool.or_eq_true_iff.2 (.inl (decide_eq_true always))
  have once : placed ((s.reach next).setRule r y) l r (ticking next period (s.lane l)) (countedDown y) =
      placed (s.reach next) l r (ticking next period (s.lane l)) (countedDown y) :=
    congrArg (State.setLane · l _) (setRule_setRule ..)
  rw [self, opens, gate] at third
  have counted : step3 (placed (s.reach next) l r (ticking next period (s.lane l)) y) l =
      .goOn (placed (s.reach next) l r (ticking next period (s.lane l)) (countedDown y)) [(r, true)] :=
    third.trans (congrArg (Flow.goOn · _) once)
  have fields : (countedDown y).fields = y.fields := by
    obtain ⟨count, ends, down⟩ := countedDown_eq y
    rw [down]
  have last := lastSteps_frozen (c := .whole) (l := l) (rules := [r]) (gates := [(r, true)])
    (s := placed (s.reach next) l r (ticking next period (s.lane l)) (countedDown y)) fun g only => by
      rw [List.mem_singleton.1 only, rule_placed, fields, is]
      exact ⟨List.mem_singleton_self r, freezes⟩
  have later := (laterSteps_last (source := ⟨.frozen [r], none, none⟩) second counted).trans last
  rw [lane_placed] at later
  have whole : countedDown y = { countedDown (s.rule r) with applied := countUp (s.rule r).applied } := by
    rw [is, countedDown_applies]
  rw [ticked, ← whole]
  exact congrArg (fun f => Host.Outcome.next (endOfTick f)) later

/-- A FREEZE rule applies at step 1, also where another rule of the chain then fails its check. -/
theorem exec_timedTick_frozen_fails {q : RuleId} (calm : RulesCalm s) (pacing : (s.lane l).pacing = .timed next period)
    (running : (s.lane l).state = .running) (linked : (s.lane l).config.source = .live → s.link.state ≠ .lost)
    (chain : (s.lane l).chain = [r, q]) (differ : q ≠ r) (freezes : (s.rule r).fields.action = .freeze)
    (passes : (s.rule r).codeOk = true) (other : (s.rule q).fields.action ≠ .freeze)
    (fails : (s.rule q).codeOk = false) (alone : ∀ k, k ≠ l → q ∉ (s.lane k).chain) :
    exec (.timedTick ⟨l, {}⟩) s = .next (report
      ((placed (s.reach next) l r { ticking next period (s.lane l) with chain := [r] } (s.rule r).applies).setRule q
        .vacant) (.ruleCheck l q)) := by
  have froze : freezers ((s.reach next).setLane l (ticking next period (s.lane l))) l = [r] :=
    freezers_eq (by
      change (s.lane l).chain.filter (fun i => (s.rule i).fields.action = .freeze) = [r]
      rw [chain]
      simp [freezes, other])
  rw [exec_timedTick_plays calm pacing (.inr ⟨running, linked⟩) (sourceStage_frozen froze)]
  obtain ⟨y, is⟩ : ∃ y, y = (s.rule r).applies := ⟨_, rfl⟩
  have calmer (i : RuleId) : (((s.reach next).setRule r y).rule i).state ≠ .triggered :=
    untriggered_placed (t := s.reach next) (fun i => (calm i).1) (by rw [is]; exact (calm r).1) i
  have second := step2_frozen (s := placed (s.reach next) l r (ticking next period (s.lane l)) y) calmer l [r]
  have self : (placed (s.reach next) l r (ticking next period (s.lane l)) y).rule r = y := rule_placed ..
  have apart : (placed (s.reach next) l r (ticking next period (s.lane l)) y).rule q = s.rule q :=
    (State.rule_setRule (s.reach next) r q y).trans (if_neg (Ne.symm differ))
  have third := FaultRules.step3_fails (l := l) (before := [r]) (later := []) (r := q)
    (s := placed (s.reach next) l r (ticking next period (s.lane l)) y) (by rw [lane_placed]; exact chain)
    (fun i first => by rw [List.mem_singleton.1 first, self, is]; exact passes) (by rw [apart]; exact fails)
  have erased : (ticking next period (s.lane l)).chain.erase q = [r] := by
    change (s.lane l).chain.erase q = [r]
    rw [chain]
    simp [Ne.symm differ]
  rw [vacate, placed, leaveChains_one (t := (s.reach next).setRule r y) _ alone, erased] at third
  rw [is] at third second
  exact congrArg (fun f => Host.Outcome.next (endOfTick f))
    (laterSteps_gates (source := ⟨.frozen [r], none, none⟩) second third)

/-! ### An event taken within the tick -/

/-- Ends that are held back, and no others, stay as they are. -/
theorem settleBut_held {held : List RuleId} (untriggered : ∀ i, (s.rule i).state ≠ .triggered)
    (due : ∀ i, (s.rule i).endDue = true → (s.rule i).fields.unit = .cycles ∧ i ∈ held) : settleBut held s = s := by
  have delays : s.mapRules (fun _ r => if r.delayEnds then endDelay r else r) = s := mapRules_self fun i =>
    if_neg fun ends => untriggered i (FaultRules.delayEnds_iff.1 ends).1
  have ends : (endsDue s).filter (fun i => !(held.contains i && (s.rule i).fields.unit = .cycles)) = [] := by
    rw [List.filter_eq_nil_iff]
    intro i among
    obtain ⟨k, -, inChain⟩ := List.mem_flatMap.1 among
    obtain ⟨cycles, inHeld⟩ := due i (List.mem_filter.1 inChain).2
    simp [cycles, inHeld]
  unfold settleBut
  split
  · rw [delays]
    dsimp only
    rw [ends, List.foldl_nil]
  · rfl

/-- Two parts whose lanes differ in their chains alone. -/
def Rechained (s t : State) : Prop := ∀ k, ∃ chain, t.lane k = { s.lane k with chain := chain }

theorem Rechained.refl (s : State) : Rechained s s := fun k => ⟨(s.lane k).chain, rfl⟩

theorem Rechained.answer {s t : State} (h : Rechained s t) (p : Place) (a : Answer) : Rechained s (answer p (t, a)) := by
  unfold Machine.answer
  cases a with
  | reply status words =>
    dsimp only
    unfold placeReply
    split <;> exact h
  | working job => exact h

theorem rechained_disarmAll (s : State) (chosen : RuleId → Bool) : Rechained s (disarmAll s chosen).1 :=
  fun k => ⟨_, FaultRules.lane_disarmAll s chosen k⟩

theorem rechained_runDisarm (p : Place) (s : State) : Rechained s (runDisarm p s).1 := by
  unfold runDisarm
  split
  · unfold runDisarmRule
    split
    · exact .refl s
    · split
      · exact .refl s
      · exact rechained_disarmAll s _
  · unfold withForm runDisarmGroup
    split
    · split
      · exact rechained_disarmAll s _
      · exact .refl s
    · exact .refl s

theorem rechained_takeWithin (s : State) (event : TickEvent) : Rechained s (takeWithin s event) := by
  unfold takeWithin
  cases event with
  | disarm =>
    dsimp only
    unfold takeHead
    split
    · next p _ =>
      split
      · split
        · exact (Rechained.refl s).answer p _
        · exact (rechained_runDisarm p s).answer p _
      · exact .refl s
    · exact .refl s
  | ruleEnd i =>
    dsimp only
    split
    · exact fun k => ⟨_, FaultRules.lane_endActivation s i k⟩
    · exact .refl s

theorem holdWord_rechained {s t : State} (h : Rechained s t) (k : LaneId) : (t.lane k).holdWord = (s.lane k).holdWord := by
  obtain ⟨chain, same⟩ := h k
  rw [same]
  rfl

/-- A FREEZE tick that no rule moves in after its first step. -/
theorem laterSteps_frozen {c : Course} {v : State} {rules : List RuleId} (after : c.afterSource s = v)
    (late : c.afterTriggers [] v = v) (unchained : (v.lane l).chain = [])
    (untriggered : ∀ i, (v.rule i).state ≠ .triggered) :
    laterSteps c s l ⟨.frozen rules, none, none⟩ =
      .goOn (handOver v l ⟨⟨(v.lane l).holdWord, .normal, false, false, .normal⟩, true, true⟩) () := by
  simp only [laterSteps, after, step2_frozen untriggered, late, step3_unchained untriggered unchained]
  exact lastSteps_frozen fun g none => absurd none List.not_mem_nil

/-- A tick without a SOFT error that runs to its end. -/
theorem fullTick_goOn {c : Course} {u v : State} {presented : Presented}
    (first : sourceStage (s.modLane l Lane.countTickTaken) l = (u, ⟨presented, none, none⟩))
    (later : laterSteps c u l ⟨presented, none, none⟩ = .goOn v ()) : (fullTick c s l).1 = v := by
  unfold fullTick
  dsimp only
  rw [first]
  simp only [Course.told, later]

/-- A RUNNING lane with its link takes the steps of a tick, whatever is taken within it. -/
theorem laneTick_full {c : Course} (settled : c.takeEnds (t.setLane l x) = t.setLane l x) (running : x.state = .running)
    (linked : x.config.source = .live → t.link.state ≠ .lost) :
    laneTick c (t.setLane l x) l = fullTick c (t.setLane l x) l := by
  have plays : ¬(decide (x.config.source = .live) && decide (t.link.state = .lost)) = true := by
    rw [Bool.and_eq_true, decide_eq_true_eq, decide_eq_true_eq]
    exact fun both => linked both.1 both.2
  unfold laneTick
  dsimp only
  rw [settled, State.lane_setLane_same]
  simp only [running]
  exact if_neg plays

/-- The FREEZE rule leaves the chain within the tick that it has frozen (log 23). -/
theorem exec_timedTick_frozen_within {event : TickEvent} (pacing : (s.lane l).pacing = .timed next period)
    (running : (s.lane l).state = .running) (linked : (s.lane l).config.source = .live → s.link.state ≠ .lost)
    (chain : (s.lane l).chain = [r]) (freezes : (s.rule r).fields.action = .freeze)
    (untriggered : ∀ i, (s.rule i).state ≠ .triggered)
    (due : ∀ i, (s.rule i).endDue = true → (s.rule i).fields.unit = .cycles ∧ event = .ruleEnd i) {v : State}
    (taken : takeWithin (placed (s.reach next) l r (ticking next period (s.lane l)) (s.rule r).applies) event = v)
    (unchained : (v.lane l).chain = []) (still : ∀ i, (v.rule i).state ≠ .triggered) :
    exec (.timedTick ⟨l, { afterSource := [event] }⟩) s =
      .next (handOver v l ⟨⟨(s.lane l).holdWord, .normal, false, false, .normal⟩, true, true⟩) := by
  obtain ⟨c, course⟩ : ∃ c, c = courseOf report (fun _ s => s) { afterSource := [event] } := ⟨_, rfl⟩
  have row : exec (.timedTick ⟨l, { afterSource := [event] }⟩) s = .next (laneTick c
      ((s.reach next).setLane l { s.lane l with pacing := .timed (next + period) period }) l).1 := by
    rw [course]
    change execTimedTick ⟨l, { afterSource := [event] }⟩ s = _
    simp only [execTimedTick, timedTick, pacing]
    rfl
  have settled : c.takeEnds ((s.reach next).setLane l { s.lane l with pacing := .timed (next + period) period }) =
      (s.reach next).setLane l { s.lane l with pacing := .timed (next + period) period } := by
    rw [course]
    refine settleBut_held untriggered fun i ends => ⟨(due i ends).1, ?_⟩
    rw [(due i ends).2]
    exact List.mem_singleton_self i
  have froze : freezers ((s.reach next).setLane l (ticking next period (s.lane l))) l = [r] :=
    freezers_eq (by
      change (s.lane l).chain.filter (fun i => (s.rule i).fields.action = .freeze) = [r]
      rw [chain]
      simp [freezes])
  have source : sourceStage (((s.reach next).setLane l { s.lane l with pacing := .timed (next + period) period }).modLane l
      Lane.countTickTaken) l = (placed (s.reach next) l r (ticking next period (s.lane l)) (s.rule r).applies,
        ⟨.frozen [r], none, none⟩) := by
    rw [modLane_setLane]
    exact sourceStage_frozen froze
  have hold : (v.lane l).holdWord = (s.lane l).holdWord := by
    rw [← taken, holdWord_rechained (rechained_takeWithin _ event), lane_placed]
    rfl
  have later := laterSteps_frozen (c := c) (l := l) (rules := [r]) (v := v)
    (s := placed (s.reach next) l r (ticking next period (s.lane l)) (s.rule r).applies)
    (by rw [course]; exact taken) (by rw [course]; rfl) unchained still
  rw [hold] at later
  rw [row, laneTick_full (t := s.reach next) settled running linked, fullTick_goOn source later]

end Frozen

end Sys2Proof.FallbackTicks
end

section
/-! PROOFS. The last word of play (R9, R38, R58, R66; log 10, log 33), and the ticks without a word of their own. -/

namespace Sys2Proof.FallbackTicks

open Sys2Proof.Machine Sys2Proof.Conversion Sys2Proof.TimedTicks Sys2Proof.QuietTicks Sys2Proof.LaneStops

/-! ## The end of play -/

section EndOfPlay

variable {u : State} {l : LaneId}

/-- The reason of the last word of play: a drained pass goes before the end of the playlist. -/
def lastReason (x : Lane) (w : FetchWord) : EndReason :=
  if x.state = .draining ∧ w.endOfPass = true then .drained else .ended

theorem endOfPlay_ends {w : FetchWord} (settled : settle u = u)
    (last : ((u.lane l).state = .draining ∧ w.endOfPass = true) ∨ lastWordOfPlaylist (u.lane l) w = true) :
    endOfPlay u l (some w) = offerLaneEnded (laneOff u l) l (lastReason (u.lane l) w) := by
  have both : (decide ((u.lane l).state = .draining) && w.endOfPass) = true ↔
      (u.lane l).state = .draining ∧ w.endOfPass = true := by
    rw [Bool.and_eq_true, decide_eq_true_eq]
  unfold endOfPlay lastReason
  dsimp only
  rw [settled]
  by_cases drained : (u.lane l).state = .draining ∧ w.endOfPass = true
  · rw [if_pos (both.2 drained), if_pos drained]
  · rw [if_neg (mt both.1 drained), if_neg drained, if_pos (last.resolve_left drained)]

theorem off_eq {x : Lane} (chain : x.chain = []) :
    ({ givesUp x with state := .off, pacing := .stopped } : Lane) = { x with
      state := .off
      pacing := .stopped
      queue := []
      fetch := x.fetch.map fun f => { f with voided := true }
      fetchPos := .none
      debt := 0
      counted := [] } := by
  cases x
  dsimp only at chain
  subst chain
  rfl

/-- A lane taken OFF by its last word, no rule of it in play and none in its chain. -/
structure PlayEnds (u : State) (l : LaneId) (reason : EndReason) (t : State) : Prop where
  self : t.lane l = { u.lane l with
    state := .off
    pacing := .stopped
    queue := []
    fetch := (u.lane l).fetch.map fun f => { f with voided := true }
    fetchPos := .none
    debt := 0
    counted := [] }
  other : ∀ k, k ≠ l → t.lane k = u.lane k
  block : ∀ b, t.block b = { u.block b with inUse := (u.block b).inUse - (u.lane l).counted.count b }
  frame : t = { u with
    lanes := t.lanes
    dir := { u.dir with blocks := t.dir.blocks }
    ret := (offerNotice u .laneEnded [BitVec.ofNat 32 (l.val + reason.code * 2 ^ 8), u.link.currentCycle,
      BitVec.ofNat 32 (u.lane l).counters.ticks]).ret }

theorem playEnds_laneOff (chain : (u.lane l).chain = [])
    (idle : ∀ r, (u.rule r).fields.lane = l.val → (u.rule r).state ≠ .triggered ∧ (u.rule r).state ≠ .active)
    (reason : EndReason) : PlayEnds u l reason (offerLaneEnded (laneOff u l) l reason) := by
  have stops : StopsOne (fun x => { givesUp x with state := .off, pacing := .stopped }) u l (laneOff u l) :=
    stopsOne_laneOff u l
  have kept (r : RuleId) : returns u l r = false := by
    rw [← Bool.not_eq_true, returns_iff, chain]
    rintro (among | ⟨here, triggered | active⟩)
    · exact absurd among List.not_mem_nil
    · exact (idle r here).1 triggered
    · exact (idle r here).2 active
  have only : laneOff u l = { u with
      lanes := (laneOff u l).lanes
      dir := { u.dir with blocks := (laneOff u l).dir.blocks } } := by
    have rules : (laneOff u l).rules = u.rules := FaultRules.rules_ext fun r => by rw [stops.rule, kept]; rfl
    refine (stops.frame.eq_with_silent (silent_laneOff u l)).trans ?_
    rw [rules]
  have words : [packWord [(l.val, 0), (reason.code, 8)], (laneOff u l).link.currentCycle,
      numberWord ((laneOff u l).lane l).counters.ticks] = [BitVec.ofNat 32 (l.val + reason.code * 2 ^ 8),
        u.link.currentCycle, BitVec.ofNat 32 (u.lane l).counters.ticks] := by
    rw [Reports.endedWord_eq, stops.frame.tick.link, stops.self]
    rfl
  have sent : offerLaneEnded (laneOff u l) l reason = { laneOff u l with
      ret := (offerNotice u .laneEnded [BitVec.ofNat 32 (l.val + reason.code * 2 ^ 8), u.link.currentCycle,
        BitVec.ofNat 32 (u.lane l).counters.ticks]).ret } := by
    rw [offerLaneEnded, words, FaultLatch.offerNotice_eq_with,
      FaultRules.offerNotice_ret_congr (silent_laneOff u l).ret]
  rw [sent]
  refine ⟨?_, fun k other => ?_, stops.block, ?_⟩
  · exact stops.self.trans (off_eq chain)
  · have all : (u.lane k).chain.filter (fun r => !returns u l r) = (u.lane k).chain :=
      List.filter_eq_self.2 fun r _ => by rw [kept]; rfl
    refine (stops.other k other).trans ?_
    rw [all]
  · exact congrArg (fun v : State => { v with ret := (offerNotice u .laneEnded
      [BitVec.ofNat 32 (l.val + reason.code * 2 ^ 8), u.link.currentCycle,
        BitVec.ofNat 32 (u.lane l).counters.ticks]).ret }) only

/-- A hand-over takes the last-sent word, the port and PORT_SUPERSEDED of its lane. -/
theorem handed_eq (now : Nat) (x : Lane) (w : PortWord) : ∃ port superseded, x.handed now w = { x with
    lastWord := w.word
    lastLine := w.line
    sentSinceStart := true
    port := port
    counters := { x.counters with portSuperseded := superseded } } := by
  unfold Lane.handed
  dsimp only
  split
  · exact ⟨_, x.counters.portSuperseded, rfl⟩
  · exact ⟨_, x.counters.portSuperseded, rfl⟩
  · exact ⟨_, _, rfl⟩

variable {s : State} {next period : Nat} {e : Int} {o : OutCode} {q : QueueWord} {rest : List QueueWord}

/-- The part after the hand-over of a replay word, before the end of play is looked at. -/
def replayHanded (s : State) (l : LaneId) (next period : Nat) (e : Int) (o : OutCode) (q : QueueWord)
    (rest : List QueueWord) : State :=
  handOver (((replayTold s l q).reach next).setLane l
      (remembers e (wordOf (s.lane l) o) (takesHead rest (ticking next period (s.lane l))))) l
    (plainHandOver (wordOf (s.lane l) o) false)

/-- What a lane that has played a replay word keeps, its TICKS counted. -/
structure Replayed (x y : Lane) : Prop where
  state : y.state = x.state
  playlist : y.playlist = x.playlist
  chain : y.chain = x.chain
  fetch : y.fetch = x.fetch
  counted : y.counted = x.counted
  ticks : y.counters.ticks = countUp x.counters.ticks

theorem replayed_replayHanded : Replayed (s.lane l) ((replayHanded s l next period e o q rest).lane l) := by
  unfold replayHanded
  rw [HandOvers.lane_handOver_self, State.lane_setLane_same]
  obtain ⟨port, superseded, handed⟩ := handed_eq _
    (remembers e (wordOf (s.lane l) o) (takesHead rest (ticking next period (s.lane l)))) _
  rw [handed]
  exact ⟨rfl, rfl, rfl, rfl, rfl, rfl⟩

theorem lane_replayHanded_other {k : LaneId} (other : k ≠ l) :
    (replayHanded s l next period e o q rest).lane k = s.lane k := by
  obtain ⟨_, _, told, -⟩ := replayTold_eq s l q
  unfold replayHanded
  rw [HandOvers.lane_handOver_other _ l _ other, State.lane_setLane, if_neg (Ne.symm other), told]
  rfl

theorem replayHanded_keeps : (∀ r, (replayHanded s l next period e o q rest).rule r = s.rule r) ∧
    (replayHanded s l next period e o q rest).dir = s.dir ∧
    (replayHanded s l next period e o q rest).link = s.link := by
  obtain ⟨_, _, told, -⟩ := replayTold_eq s l q
  unfold replayHanded
  rw [HandOvers.handOver_eq, told]
  exact ⟨fun _ => rfl, rfl, rfl⟩

/-- The last word of a drained pass, or else of the playlist, takes its lane OFF. -/
theorem exec_timedTick_last (quiet : RulesQuiet s)
    (idle : ∀ r, (s.rule r).fields.lane = l.val → (s.rule r).state ≠ .active)
    (pacing : (s.lane l).pacing = .timed next period)
    (plays : (s.lane l).state = .running ∨ (s.lane l).state = .draining) (chain : (s.lane l).chain = [])
    (replay : (s.lane l).config.source = .replay)
    (head : (s.lane l).queue.drop (min (s.lane l).debt ((s.lane l).queue.length - 1)) = q :: rest)
    (code : e = if traceWordFails q.word = true ∨ q.word.getLsbD 25 = true then (s.lane l).prev.getD 0
      else (q.word.setWidth 24).toInt)
    (reads : curveStage s (s.lane l).config.curve e = .code o)
    (last : ((s.lane l).state = .draining ∧ q.place.endOfPass = true) ∨ lastWordOfPlaylist (s.lane l) q.place = true) :
    ∃ t, exec (.timedTick ⟨l, {}⟩) s = .next t ∧
      PlayEnds (replayHanded s l next period e o q rest) l (lastReason (s.lane l) q.place) t := by
  obtain ⟨rules, -, -⟩ := replayHanded_keeps (s := s) (l := l) (next := next) (period := period) (e := e) (o := o)
    (q := q) (rest := rest)
  have ticked := exec_timedTick_replay quiet pacing plays chain replay head code reads
  change _ = Host.Outcome.next (endOfPlay (replayHanded s l next period e o q rest) l (some q.place)) at ticked
  have lane : Replayed (s.lane l) ((replayHanded s l next period e o q rest).lane l) := replayed_replayHanded
  generalize replayHanded s l next period e o q rest = u at *
  obtain ⟨state, playlist, unchained, -, -, -⟩ := lane
  have reason : lastReason (u.lane l) q.place = lastReason (s.lane l) q.place := by rw [lastReason, lastReason, state]
  rw [endOfPlay_ends (settle_calm fun r => by rw [rules]; exact (quiet r).2)
    (by rw [state, lastWordOfPlaylist_congr playlist]; exact last), reason] at ticked
  refine ⟨_, ticked, playEnds_laneOff (unchained.trans chain) (fun r here => ?_) _⟩
  rw [rules] at here ⊢
  exact ⟨(quiet r).2.1, idle r here⟩

end EndOfPlay

/-! ## The events taken within a tick are those of their rows (log 23) -/

section Rows

variable {s : State} {p : Place} {rest : List Place} (headed : Headed s p rest) (carried : CarriedOut .disarm p)
  (settled : settle s = s)

include headed carried

theorem takeWithin_disarm : takeWithin s .disarm = answer p (runDisarm p s) := by
  simp only [takeWithin, takeHead, headRecord_of headed, isCommand_carriedOut carried, if_true,
    judge_carriedOut carried]

include settled

theorem exec_disarmRule_within (form : armForm p = 0) : exec .disarmRule s = .next (takeWithin s .disarm) := by
  rw [takeWithin_disarm headed carried, runDisarm, if_pos form, ← FaultRules.withForm_of runDisarmRule s form]
  have row := takeRecord_carriedOut (m := "DISARM_RULE") (run := withForm 0 runDisarmRule) headed carried
    (FaultRules.takesForm_of (other := 1) carried (by rw [form]; decide))
  rw [settled] at row
  exact row

theorem exec_disarmGroup_within (form : armForm p = 1) : exec .disarmGroup s = .next (takeWithin s .disarm) := by
  rw [takeWithin_disarm headed carried, runDisarm, if_neg (by rw [form]; decide)]
  have row := takeRecord_carriedOut (m := "DISARM_GROUP") (run := withForm 1 runDisarmGroup) headed carried
    (FaultRules.takesForm_of (other := 0) carried (by rw [form]; decide))
  rw [settled] at row
  exact row

end Rows

/-- Settles O21: each kind of tick without a word of its own, the end of play, and the rows of what is taken within. -/
theorem fallbackTicksHandTheirWord : Obligations.FallbackTicksHandTheirWord := by
  refine ⟨fun l s next period => ?ticks, fun r s active due unit => ?ends,
    fun s p rest headed carried settled => ?disarm⟩
  case ticks =>
    intro x hold ticked hands pacing
    refine ⟨fun calm => ⟨fun running live lost => ?lost, fun plays chain replay queue => ?underrun,
      fun halted live => ⟨fun lost => ?waits, fun linked => ?senses⟩,
      fun r running linked chain active freezes passes always => ?freeze⟩,
      fun r event running linked chain freezes due => ?within,
      fun r q running linked chain differ freezes passes other fails alone calm => ?fails,
      fun q rest e o plays chain quiet reads replay head code last => ?last⟩
    case lost =>
      refine (exec_timedTick_lost (fun i => (calm i).symm) pacing running live lost).trans
        (congrArg (fun w => Host.Outcome.next (handOver _ l (plainHandOver w true))) ?_)
      simp only [Lane.lostWord]
      cases x.config.fallback <;> rfl
    case underrun =>
      refine (exec_timedTick_underrun (fun i => (calm i).symm) pacing plays chain replay queue).trans
        (congrArg (fun y => Host.Outcome.next (handOver ((s.reach next).setLane l y) l (plainHandOver hold true))) ?_)
      change (ticking next period x).underrun = _
      clear_value x
      cases mode : x.config.underrun <;> simp only [Lane.underrun, ticking, mode, Config.debtMax]
    case waits =>
      rw [exec_timedTick_halted (fun i => (calm i).symm) pacing halted live, haltedTick_lost (t := s.reach next) lost]
      rfl
    case senses =>
      intro sensed
      refine ⟨fun o reads => ?code, fun c k fails => ?point⟩
      case code =>
        refine (exec_timedTick_halted_code (fun i => (calm i).symm) pacing halted live linked reads).trans ?_
        rw [senses_eq]
        rfl
      case point =>
        refine (exec_timedTick_halted_point (fun i => (calm i).symm) pacing halted live linked fails).trans ?_
        rw [senses_eq]
        rfl
    case freeze =>
      exact exec_timedTick_frozen (fun i => (calm i).symm) pacing running linked chain active freezes passes always
    case within =>
      intro v unchained still
      exact exec_timedTick_frozen_within pacing running linked chain freezes (fun i => (due i).1) (fun i => (due i).2) rfl
        unchained still
    case fails =>
      exact exec_timedTick_frozen_fails (fun i => (calm i).symm) pacing running linked chain differ freezes passes
        other fails alone
    case last =>
      intro w u reason
      have quieter : RulesQuiet s := fun r => ⟨(quiet r).1, (quiet r).2.1, (quiet r).2.2.1⟩
      obtain ⟨t, played, off⟩ := exec_timedTick_last quieter (fun r here => (quiet r).2.2.2 here) pacing plays chain replay
        head code reads last
      obtain ⟨self, other, block, frame⟩ := off
      obtain ⟨-, dir, link⟩ := replayHanded_keeps (s := s) (l := l) (next := next) (period := period) (e := e) (o := o)
        (q := q) (rest := rest)
      obtain ⟨-, -, -, fetch, counted, ticks⟩ := replayed_replayHanded (s := s) (l := l) (next := next)
        (period := period) (e := e) (o := o) (q := q) (rest := rest)
      have aside (k : LaneId) (apart : k ≠ l) := lane_replayHanded_other (s := s) (l := l) (next := next)
        (period := period) (e := e) (o := o) (q := q) (rest := rest) apart
      have same : replayHanded s l next period e o q rest = u := rfl
      rw [same] at self other block frame dir link fetch counted ticks aside
      have code : (lastReason x q.place).code = reason := by
        unfold lastReason
        by_cases drained : x.state = .draining ∧ q.place.endOfPass = true
        · rw [if_pos drained]
          exact (if_pos drained).symm
        · rw [if_neg drained]
          exact (if_neg drained).symm
      clear_value u reason
      have words : [BitVec.ofNat 32 (l.val + (lastReason x q.place).code * 2 ^ 8), u.link.currentCycle,
          BitVec.ofNat 32 (u.lane l).counters.ticks] = [BitVec.ofNat 32 (l.val + reason * 2 ^ 8),
          s.link.currentCycle, BitVec.ofNat 32 (countUp x.counters.ticks)] := by
        rw [code, link, ticks]
      rw [words, dir] at frame
      rw [fetch] at self
      exact ⟨t, played, self, fun k apart => (other k apart).trans (aside k apart),
        fun b => by rw [block, block_of_dir dir, counted], frame⟩
  case ends =>
    have takes : ((s.rule r).state = .active && (s.rule r).endDue && (s.rule r).fields.unit = .cycles) = true := by
      simp [active, due, unit]
    rw [FaultRules.exec_ruleDurationEnd active due, takeWithin]
    exact congrArg _ (if_pos takes).symm
  case disarm =>
    refine ⟨fun form => exec_disarmRule_within headed carried settled ?_,
      fun form => exec_disarmGroup_within headed carried settled ?_⟩
    · exact congrArg BitVec.toNat form
    · exact congrArg BitVec.toNat form

end Sys2Proof.FallbackTicks
end
